-- ==== Sys2Proof/Word.lean ====
section
/-! DEFINITION. The word types of the engine (00_scope R10: every value is an unsigned integer of a stated width). -/

namespace Sys2Proof

/-- A byte of a byte string (00_scope R11). -/
abbrev Byte := BitVec 8

/-- The width of every register and of the only bus access (10_state R20, 20_memory R79). -/
abbrev Word := BitVec 32

/-- The width of TIMEVAL and CTRVAL (00_scope R8: TIME_BITS, COUNTER_BITS). -/
abbrev DWord := BitVec 64

end Sys2Proof
end

