-- ==== Sys2Proof/Syntax.lean ====
section
/-! DEFINITION. The commands, the registers by name and the bus transfers: 30_encoding R102, 10_state R21, 20_memory R72 and R73. -/

namespace Sys2Proof

/-- The seven commands of the opcode map (30_encoding R102). No command has an operand field (R103). -/
inductive Instr where
  /-- No operation (43_control R235). -/
  | nop
  /-- CTR <- TIME div 30 (40_timestep R132). -/
  | tstep
  /-- DIGEST <- HMAC-SHA1(KEY, BE_8(CTR)) (41_hmac_sha1 R170). -/
  | hmac
  /-- OFFSET, TRUNC <- dynamic truncation of DIGEST (42_truncate_format R202). -/
  | dtrunc
  /-- CODE, CODE_BCD, CODE_ASC0/1 <- TRUNC as six digits (42_truncate_format R211). -/
  | fmt6
  /-- The four steps in one command, from TIME and KEY (43_control R236). -/
  | totp
  /-- Clears the key and every derived register (43_control R241). -/
  | zeroize
  deriving DecidableEq, Repr

/-- The registers of the window, by the names of 10_state R21. -/
inductive Reg where
  | id
  | cmd
  | status
  | irqEn
  | timeLo
  | timeHi
  | ctrLo
  | ctrHi
  | key (i : Fin 8)
  | digest (i : Fin 5)
  | trunc
  | offset
  | code
  | codeBcd
  | codeAsc0
  | codeAsc1
  deriving DecidableEq, Repr

/-- One whole bus transfer: the byte offset `bus_addr`, the byte enables `bus_be` and, for a write, `bus_wdata`
(20_memory R71 to R73). -/
inductive Transfer where
  | read (off : BitVec 8) (be : BitVec 4)
  | write (off : BitVec 8) (be : BitVec 4) (data : Word)
  deriving DecidableEq, Repr

end Sys2Proof
end

