-- ==== Sys2Proof/Config.lean ====
section
/-! DEFINITION. The fixed parameters of 00_scope R8, the open parameters of R9, and the free values. -/

namespace Sys2Proof.Config

/-- T_STEP, 30 seconds (00_scope R8). -/
def tStep : Nat := 30

/-- MODULUS, 10^6 (00_scope R8). -/
def modulus : Nat := 1000000

/-- DIGITS, the length of a code (00_scope R8). -/
def digits : Nat := 6

/-- SHA1_BLOCK_BYTES (00_scope R8; general knowledge of the spec's own, 93 G1). -/
def sha1BlockBytes : Nat := 64

/-- ID_VALUE: "OTP" and version 1 (00_scope R8, 10_state R22). -/
def idValue : Word := 0x4F545001

/-- The open BASE_ADDR in units of 256 bytes: the platform chooses it (00_scope R9, 93 U2). -/
opaque basePage : Nat

/-- BASE_ADDR, 256-byte aligned (00_scope R9). -/
def baseAddr : Nat := 256 * basePage

/-- One less than the open LAT_op of each command (00_scope R9, 93 U1). -/
opaque latencyLessOne : Instr → Nat

/-- LAT_op: at least one cycle, fixed per opcode, a function of no data (00_scope R9, 70_reset_and_hazards R318). No rule
of the model reads it (log entry 11). -/
def latency (op : Instr) : Nat := latencyLessOne op + 1

/-- Free value: word `i` of the hidden working state drawn as number `draw` (10_state R42 does not say what it holds while
a command is in flight; DESIGN CHOICE, log entry 4). -/
opaque hiddenWord : Nat → Nat → Word

/-- Free value: the hidden step counter of draw `draw` (10_state R42; DESIGN CHOICE, log entry 4). -/
opaque hiddenCount : Nat → Nat

end Sys2Proof.Config
end

