-- ==== Sys2Proof/WellFormed.lean ====
section
/-! DEFINITION. What the spec requires of a command word and of a transfer before it has an effect: 30_encoding R101 and
R104, 20_memory R78 and R79. -/

namespace Sys2Proof

/-- A command has no operand and no immediate (30_encoding R103), so every term of `Instr` is well formed: what can be ill
formed is the word (`commandWordWf`) and the transfer that carries it (`Transfer.wf`). -/
def Instr.wf : Instr → Bool
  | .nop | .tstep | .hmac | .dtrunc | .fmt6 | .totp | .zeroize => true

/-- RSVD, bits 31:8, is zero (30_encoding R101). -/
def rsvdClear (w : Word) : Bool := w.extractLsb' 8 24 == 0

/-- OP, bits 7:0, is assigned (30_encoding R102). -/
def opAssigned (w : Word) : Bool :=
  let op := (w.extractLsb' 0 8).toNat
  decide (op ≤ 0x05) || op == 0x0F

/-- The words that 30_encoding R104 calls legal. -/
def commandWordWf (w : Word) : Bool := rsvdClear w && opAssigned w

/-- The offset is a multiple of four (20_memory R78). -/
def alignedOffset (off : BitVec 8) : Bool := off.toNat % 4 == 0

/-- All four byte enables are set (20_memory R79). -/
def fullEnable (be : BitVec 4) : Bool := be == 0xF

/-- A transfer that 20_memory R78 and R79 do not refuse. -/
def Transfer.wf : Transfer → Bool
  | .read off be => alignedOffset off && fullEnable be
  | .write off be _ => alignedOffset off && fullEnable be

end Sys2Proof
end

