-- ==== Sys2Proof/Decode.lean ====
section
/-! DEFINITION. Decoding and encoding of the CMD word: 30_encoding R100 to R106. -/

namespace Sys2Proof

/-- Why a word is Illegal (30_encoding R104). Both reasons end in the one command error ILLEGAL_CMD (R105). -/
inductive Illegal where
  /-- RSVD, bits 31:8, is not zero. -/
  | reservedBits
  /-- RSVD is zero and OP is not one of the seven. -/
  | unassignedOp
  deriving DecidableEq, Repr

/-- The decoder of 30_encoding R104, total on all 2^32 words. -/
def decode (w : Word) : Except Illegal Instr :=
  if w.extractLsb' 8 24 ≠ 0 then .error .reservedBits
  else
    match (w.extractLsb' 0 8).toNat with
    | 0x00 => .ok .nop
    | 0x01 => .ok .tstep
    | 0x02 => .ok .hmac
    | 0x03 => .ok .dtrunc
    | 0x04 => .ok .fmt6
    | 0x05 => .ok .totp
    | 0x0F => .ok .zeroize
    | _ => .error .unassignedOp

/-- The OP field of each command (30_encoding R102). -/
def opcode : Instr → BitVec 8
  | .nop => 0x00
  | .tstep => 0x01
  | .hmac => 0x02
  | .dtrunc => 0x03
  | .fmt6 => 0x04
  | .totp => 0x05
  | .zeroize => 0x0F

/-- The command word: RSVD = 0 above OP (30_encoding R101). -/
def encode (i : Instr) : Word := 0#24 ++ opcode i

/-- The instruction the decoder reads from a word given as a number of `nbits` bits. A command is exactly 32 bits (30_encoding
R100): missing upper bits are zero, and a longer encoding is no command. -/
def decodeTableWord (nbits w : Nat) : Option Instr :=
  if 32 < nbits then none
  else
    match decode (BitVec.ofNat 32 (w % 2 ^ nbits)) with
    | .ok i => some i
    | .error _ => none

end Sys2Proof
end

