-- ==== Sys2Proof/Machine/State.lean ====
section
/-! DEFINITION. The state of the engine and its interface as plain data: 10_state R20 to R42, 20_memory R71. -/

namespace Sys2Proof.Machine

/-- The sequencer: IDLE or BUSY(op) (10_state R41). At most one command is in flight; there is no queue. -/
inductive Seq where
  | idle
  | busy (op : Instr)
  deriving DecidableEq, Repr

/-- STATUS.ERRCODE (60_exceptions R261). Codes 3 to 15 are produced by no event and no model's STATUS holds them
(93_implementation_defined U4; log entry 14). -/
inductive ErrCode where
  | noError
  | illegalCmd
  | noKey
  deriving DecidableEq, Repr

/-- The hidden working state (10_state R42): SHA-1 chaining words, message schedule, HMAC inner digest, padded key blocks and a
step counter. No access reads it. -/
structure Hidden where
  chain : Vector Word 5
  msgSchedule : Vector Word 80
  inner : Vector Word 5
  innerBlock : Vector Word 16
  outerBlock : Vector Word 16
  stepCount : Nat
  deriving DecidableEq, Repr

/-- Hidden working state overwritten with zeros, as at every commit and at reset (10_state R42). -/
def Hidden.zero : Hidden :=
  { chain := Vector.replicate 5 0
    msgSchedule := Vector.replicate 80 0
    inner := Vector.replicate 5 0
    innerBlock := Vector.replicate 16 0
    outerBlock := Vector.replicate 16 0
    stepCount := 0 }

/-- What a completed transfer answers: `bus_rdata` and `bus_err` of a read, `bus_err` of a write (20_memory R72, R73). -/
inductive Response where
  | read (data : Word) (err : Bool)
  | write (err : Bool)
  deriving DecidableEq, Repr

/-- One move in the total order of transfers, commits and resets (20_memory R85, 43_control R234; log entries 1 and 6). -/
inductive Event where
  /-- The host's transfer is served (43_control R234, steps 1 and 2). -/
  | host (t : Transfer)
  /-- The engine's turn: its commit, if a command is in flight (43_control R231, R234 step 3). -/
  | engine
  /-- `rst_n` goes to 0. A transfer that coincides with it is lost (60_exceptions R266). -/
  | resetAssert (lost : Option Transfer)
  /-- `rst_n` returns to 1 (70_reset_and_hazards R300). -/
  | resetRelease
  deriving DecidableEq, Repr

/-- The state. Register fields carry the names of 10_state R21; STATUS is held by its fields (R24), with BUSY computed from
`seq` (R25) and KEYV from `keywr` (R29); ID is hard-wired (R44). -/
structure State where
  /-- CMD (10_state R23). -/
  cmd : Word
  /-- STATUS.DONE (10_state R26). -/
  done : Bool
  /-- STATUS.ERR (10_state R27). -/
  err : Bool
  /-- STATUS.BUSYWR (10_state R28). -/
  busywr : Bool
  /-- STATUS.ERRCODE (10_state R27, 60_exceptions R261). -/
  errcode : ErrCode
  /-- STATUS.KEYWR (10_state R29). -/
  keywr : BitVec 8
  /-- IRQ_EN.DONE_IE (10_state R30). -/
  doneIe : Bool
  /-- IRQ_EN.ERR_IE (10_state R30). -/
  errIe : Bool
  /-- TIME_LO (10_state R32). -/
  timeLo : Word
  /-- TIME_HI (10_state R32). -/
  timeHi : Word
  /-- CTR_LO (10_state R34). -/
  ctrLo : Word
  /-- CTR_HI (10_state R34). -/
  ctrHi : Word
  /-- KEY0 to KEY7 (10_state R31). -/
  key : Vector Word 8
  /-- DIGEST0 to DIGEST4 (10_state R33). -/
  digest : Vector Word 5
  /-- TRUNC (10_state R35). -/
  trunc : Word
  /-- OFFSET (10_state R36). -/
  offset : Word
  /-- CODE (10_state R37). -/
  code : Word
  /-- CODE_BCD (10_state R38). -/
  codeBcd : Word
  /-- CODE_ASC0 (10_state R39). -/
  codeAsc0 : Word
  /-- CODE_ASC1 (10_state R39). -/
  codeAsc1 : Word
  /-- The sequencer state (10_state R41). -/
  seq : Seq
  /-- The hidden working state (10_state R42). -/
  hidden : Hidden
  /-- The level of `rst_n` (20_memory R71). -/
  rstN : Bool
  /-- The bus outputs of the last completed transfer (20_memory R71; log entry 5). -/
  resp : Option Response
  /-- The model's own: the moves still to come, in order (log entry 1). -/
  schedule : List Event
  /-- The model's own: how many free hidden contents were drawn (log entry 4). -/
  draws : Nat
  deriving DecidableEq, Repr

/-- Reasons the machine stops with a fault. There are none: the engine has no traps (60_exceptions R260, R267), and every error is
a STATUS flag or a bus response. -/
inductive Fault where
  deriving DecidableEq, Repr

/-- Reasons the model has no step. -/
inductive Refusal where
  /-- Raised by a dispatch arm of an instruction without a meaning. No arm raises it now. Safe: the run stops. -/
  | notModelled (mnemonic : String)
  /-- Raised by the step that would serve a host transfer while `rst_n = 0`: "its effect and its response are not defined"
  (70_reset_and_hazards R302, 93_implementation_defined U10). Safe: the run stops. -/
  | transferDuringReset
  deriving DecidableEq, Repr

/-- The machine right after reset: every register as 70_reset_and_hazards R301 lists it, `rst_n` back at 1, nothing scheduled. The
values of `resp`, `schedule` and `draws` are the model's (DESIGN CHOICE, log entries 4, 5 and 9). -/
def State.reset : State :=
  { cmd := 0
    done := false
    err := false
    busywr := false
    errcode := .noError
    keywr := 0
    doneIe := false
    errIe := false
    timeLo := 0
    timeHi := 0
    ctrLo := 0
    ctrHi := 0
    key := Vector.replicate 8 0
    digest := Vector.replicate 5 0
    trunc := 0
    offset := 0
    code := 0
    codeBcd := 0
    codeAsc0 := 0
    codeAsc1 := 0
    seq := .idle
    hidden := Hidden.zero
    rstN := true
    resp := none
    schedule := []
    draws := 0 }

end Sys2Proof.Machine
end

