-- ==== Sys2Proof/Machine/Bytes.lean ====
section
/-! DEFINITION. Byte strings and their packing into words: 00_scope R11, 20_memory R75. -/

namespace Sys2Proof.Machine

/-- BE_n(v): the n-byte big-endian encoding of `v < 2^(8n)`, most significant byte first (00_scope R11). -/
def beBytes : Nat → Nat → List Byte
  | 0, _ => []
  | n + 1, v => BitVec.ofNat 8 (v / 256 ^ n) :: beBytes n v

/-- fromBE(B): the number whose big-endian encoding is B (00_scope R11). -/
def fromBE (bs : List Byte) : Nat := bs.foldl (fun acc b => acc * 256 + b.toNat) 0

/-- `zeros(n)` (00_scope R11). -/
def zeros (n : Nat) : List Byte := List.replicate n 0

/-- Bytewise exclusive-or of two strings of one length (00_scope R11). -/
def xorBytes (a b : List Byte) : List Byte := List.zipWith (· ^^^ ·) a b

/-- BE_4 of a register (10_state R31, R33, R39). -/
def be4 (w : Word) : List Byte := beBytes 4 w.toNat

/-- BE_8 of a 64-bit value (40_timestep R134). -/
def be8 (v : DWord) : List Byte := beBytes 8 v.toNat

/-- fromBE(B[4i .. 4i+3]) as a word. -/
def wordAt (bs : List Byte) (i : Nat) : Word := BitVec.ofNat 32 (fromBE ((bs.drop (4 * i)).take 4))

/-- The byte string of a list of words, each BE_4 (20_memory R75). -/
def bytesOfWords (ws : List Word) : List Byte := ws.flatMap be4

/-- A 20-byte string as the five words of DIGEST0 to DIGEST4 (10_state R33). -/
def digestWords (bs : List Byte) : Vector Word 5 :=
  #v[wordAt bs 0, wordAt bs 1, wordAt bs 2, wordAt bs 3, wordAt bs 4]

end Sys2Proof.Machine
end

