-- ==== Sys2Proof/Machine/RegMap.lean ====
section
/-! DEFINITION. The register map: offsets and access kinds of 10_state R21, and the window at BASE_ADDR of 20_memory R70. -/

namespace Sys2Proof.Machine

/-- The byte offset of a register from BASE_ADDR (10_state R21). -/
def regOffset : Reg → BitVec 8
  | .id => 0x00
  | .cmd => 0x04
  | .status => 0x08
  | .irqEn => 0x0C
  | .timeLo => 0x10
  | .timeHi => 0x14
  | .ctrLo => 0x18
  | .ctrHi => 0x1C
  | .key i => BitVec.ofNat 8 (0x20 + 4 * i.val)
  | .digest i => BitVec.ofNat 8 (0x40 + 4 * i.val)
  | .trunc => 0x54
  | .offset => 0x58
  | .code => 0x5C
  | .codeBcd => 0x60
  | .codeAsc0 => 0x64
  | .codeAsc1 => 0x68

/-- The register at an offset; none at a misaligned or reserved offset (10_state R21, R40). -/
def regAt (off : BitVec 8) : Option Reg :=
  match off.toNat with
  | 0x00 => some .id
  | 0x04 => some .cmd
  | 0x08 => some .status
  | 0x0C => some .irqEn
  | 0x10 => some .timeLo
  | 0x14 => some .timeHi
  | 0x18 => some .ctrLo
  | 0x1C => some .ctrHi
  | 0x20 => some (.key 0)
  | 0x24 => some (.key 1)
  | 0x28 => some (.key 2)
  | 0x2C => some (.key 3)
  | 0x30 => some (.key 4)
  | 0x34 => some (.key 5)
  | 0x38 => some (.key 6)
  | 0x3C => some (.key 7)
  | 0x40 => some (.digest 0)
  | 0x44 => some (.digest 1)
  | 0x48 => some (.digest 2)
  | 0x4C => some (.digest 3)
  | 0x50 => some (.digest 4)
  | 0x54 => some .trunc
  | 0x58 => some .offset
  | 0x5C => some .code
  | 0x60 => some .codeBcd
  | 0x64 => some .codeAsc0
  | 0x68 => some .codeAsc1
  | _ => none

/-- The registers a host write never changes and that answer it with a bus error (20_memory R80). -/
def readOnly : Reg → Bool
  | .id | .ctrLo | .ctrHi | .trunc | .offset | .code | .codeBcd | .codeAsc0 | .codeAsc1 => true
  | .cmd | .status | .irqEn | .timeLo | .timeHi | .key _ | .digest _ => false

/-- The data registers whose writes are dropped while busy (20_memory R74). CMD, dropped too, is handled by its request. -/
def guarded : Reg → Bool
  | .timeLo | .timeHi | .key _ | .digest _ => true
  | .id | .cmd | .status | .irqEn | .ctrLo | .ctrHi | .trunc | .offset | .code | .codeBcd | .codeAsc0 | .codeAsc1 => false

/-- The offset within the window of a bus address, if the window holds it (20_memory R70: `BASE_ADDR .. BASE_ADDR + 0xFF`); this is
when the platform raises `bus_sel` (R71). -/
def windowOffset (addr : Nat) : Option (BitVec 8) :=
  if Config.baseAddr ≤ addr ∧ addr ≤ Config.baseAddr + 0xFF then some (BitVec.ofNat 8 (addr - Config.baseAddr)) else none

end Sys2Proof.Machine
end

