-- ==== Sys2Proof/Machine/Operands.lean ====
section
/-! DEFINITION. The operands of the commands, assembled from the fixed registers: 10_state R31 to R34 and R39, 30_encoding R103. -/

namespace Sys2Proof.Machine

/-- TIMEVAL = {TIME_HI, TIME_LO} (10_state R32). -/
def timeVal (s : State) : DWord := s.timeHi ++ s.timeLo

/-- CTRVAL = {CTR_HI, CTR_LO} (10_state R34). -/
def ctrVal (s : State) : DWord := s.ctrHi ++ s.ctrLo

/-- KEYBYTES: the 32 bytes of KEY0 to KEY7 (10_state R31). -/
def keyBytes (s : State) : List Byte := bytesOfWords s.key.toList

/-- DIGESTBYTES: the 20 bytes of DIGEST0 to DIGEST4 (10_state R33). -/
def digestBytes (s : State) : List Byte := bytesOfWords s.digest.toList

/-- CODESTR: the six characters of CODE_ASC0 and CODE_ASC1 (10_state R39). -/
def codeStr (s : State) : List Byte := be4 s.codeAsc0 ++ (be4 s.codeAsc1).take 2

/-- The "needs key" column of 30_encoding R102. -/
def needsKey : Instr → Bool
  | .hmac | .totp => true
  | .nop | .tstep | .dtrunc | .fmt6 | .zeroize => false

end Sys2Proof.Machine
end

