-- ==== Sys2Proof/Machine/Flags.lean ====
section
/-! DEFINITION. STATUS, IRQ_EN and irq: 10_state R24 to R30 and R45, 60_exceptions R270. -/

namespace Sys2Proof.Machine

/-- STATUS.BUSY: 1 exactly when a command is in flight (10_state R25). -/
def busy (s : State) : Bool :=
  match s.seq with
  | .idle => false
  | .busy _ => true

/-- STATUS.KEYV: KEYWR = 0xFF (10_state R29). -/
def keyv (s : State) : Bool := s.keywr == 0xFF

/-- The four bits of ERRCODE (60_exceptions R261). -/
def errBits : ErrCode → BitVec 4
  | .noError => 0
  | .illegalCmd => 1
  | .noKey => 2

/-- The STATUS word a read returns (10_state R24): reserved 31:17, KEYV 16, KEYWR 15:8, ERRCODE 7:4, BUSYWR 3, ERR 2, DONE 1,
BUSY 0. -/
def statusWord (s : State) : Word :=
  0#15 ++ BitVec.ofBool (keyv s) ++ s.keywr ++ errBits s.errcode ++ BitVec.ofBool s.busywr ++ BitVec.ofBool s.err
    ++ BitVec.ofBool s.done ++ BitVec.ofBool (busy s)

/-- The IRQ_EN word a read returns (10_state R30). -/
def irqEnWord (s : State) : Word := 0#30 ++ BitVec.ofBool s.errIe ++ BitVec.ofBool s.doneIe

/-- A host write of STATUS: write one to clear DONE, ERR with ERRCODE, and BUSYWR; every other bit is ignored (10_state R24). -/
def statusW1c (w : Word) (s : State) : State :=
  { s with
    done := s.done && !w.getLsbD 1
    err := s.err && !w.getLsbD 2
    errcode := if w.getLsbD 2 then .noError else s.errcode
    busywr := s.busywr && !w.getLsbD 3 }

/-- A host write of IRQ_EN (10_state R30). -/
def writeIrqEn (w : Word) (s : State) : State :=
  { s with doneIe := w.getLsbD 0, errIe := w.getLsbD 1 }

/-- The interrupt output, a level computed from the registers at every instant (60_exceptions R270). -/
def irq (s : State) : Bool := (s.done && s.doneIe) || ((s.err || s.busywr) && s.errIe)

end Sys2Proof.Machine
end

