-- ==== Sys2Proof/Machine/Ops.lean ====
section
/-! DEFINITION. The shared operations: acceptance, command error, commit, busy rejection, reset, and reading and writing one register.
43_control R230 and R231, 60_exceptions R262 and R263, 70_reset_and_hazards R300, 20_memory R72 to R74. -/

namespace Sys2Proof.Machine

/-- The first writes of a request that is not rejected: CMD <- W, and DONE, ERR and ERRCODE are cleared (43_control R230). -/
def latchCommand (w : Word) (s : State) : State :=
  { s with cmd := w, done := false, err := false, errcode := .noError }

/-- `raise CmdError(code)`, the engine's only "exception entry": ERR, ERRCODE and DONE are set and nothing else changes
(60_exceptions R262, R267). Its return is `statusW1c` or the next accepted command (R268). -/
def cmdError (code : ErrCode) (s : State) : State :=
  { s with err := true, errcode := code, done := true }

/-- The free contents of the hidden working state while a command is in flight (10_state R42; log entry 4). -/
@[irreducible] def hiddenInFlight (draw : Nat) : Hidden :=
  { chain := Vector.ofFn fun i => Config.hiddenWord draw i.val
    msgSchedule := Vector.ofFn fun i => Config.hiddenWord draw (5 + i.val)
    inner := Vector.ofFn fun i => Config.hiddenWord draw (85 + i.val)
    innerBlock := Vector.ofFn fun i => Config.hiddenWord draw (90 + i.val)
    outerBlock := Vector.ofFn fun i => Config.hiddenWord draw (106 + i.val)
    stepCount := Config.hiddenCount draw }

/-- seq <- BUSY(op), which is STATUS.BUSY <- 1 (43_control R230, 10_state R25). -/
def enterBusy (op : Instr) (s : State) : State :=
  { s with seq := .busy op, hidden := hiddenInFlight s.draws, draws := s.draws + 1 }

/-- The request of a legal command while idle (43_control R230 from `reg.CMD <- W` on): NO_KEY if it needs a key and KEYV = 0, else
accepted. -/
def accept (op : Instr) (s : State) : State :=
  if needsKey op && !keyv s then cmdError .noKey (latchCommand (encode op) s) else enterBusy op (latchCommand (encode op) s)

/-- The request of an illegal word while idle (43_control R230, 30_encoding R105). -/
def rejectIllegal (w : Word) (s : State) : State := cmdError .illegalCmd (latchCommand w s)

/-- Busy rejection: BUSYWR <- 1 and nothing else (20_memory R74, 60_exceptions R263). -/
def rejectBusy (s : State) : State := { s with busywr := true }

/-- The end of a commit: hidden <- 0, seq <- IDLE (BUSY <- 0), DONE <- 1 (43_control R231). -/
def finish (s : State) : State := { s with hidden := Hidden.zero, seq := .idle, done := true }

/-- One command as the sequencer sees it, `results` being its Exec (43_control R233): idle, it is requested; in flight, it commits
(R231); while another command is in flight, its request is rejected (R230, first test). Log entry 3. -/
def runCommand (op : Instr) (results : State → State) (s : State) : Host.Outcome State Fault Refusal :=
  match s.seq with
  | .idle => .next (accept op s)
  | .busy current => if current = op then .next (finish (results s)) else .next (rejectBusy s)

/-- Reset while `rst_n = 0`: every register and the sequencer at the reset values, an in-flight command discarded, hidden state zero
(70_reset_and_hazards R300). The moves to come and the draw count are the model's own and stay. -/
def resetEngine (s : State) : State :=
  { State.reset with rstN := false, schedule := s.schedule, draws := s.draws }

/-- The value a read of a register returns (20_memory R72): KEY reads 0, reserved bits read 0, ID is the constant. -/
def readReg (r : Reg) (s : State) : Word :=
  match r with
  | .id => Config.idValue
  | .cmd => s.cmd
  | .status => statusWord s
  | .irqEn => irqEnWord s
  | .timeLo => s.timeLo
  | .timeHi => s.timeHi
  | .ctrLo => s.ctrLo
  | .ctrHi => s.ctrHi
  | .key _ => 0
  | .digest i => s.digest[i]
  | .trunc => s.trunc
  | .offset => s.offset
  | .code => s.code
  | .codeBcd => s.codeBcd
  | .codeAsc0 => s.codeAsc0
  | .codeAsc1 => s.codeAsc1

/-- `reg.NAME <- W` of a guarded register, with KEYWR[i] <- 1 for KEYi (20_memory R73, 10_state R29); the identity on the registers
that `guarded` excludes. -/
def storeReg (r : Reg) (w : Word) (s : State) : State :=
  match r with
  | .timeLo => { s with timeLo := w }
  | .timeHi => { s with timeHi := w }
  | .key i => { s with key := s.key.set i.val w i.isLt, keywr := s.keywr ||| BitVec.twoPow 8 i.val }
  | .digest i => { s with digest := s.digest.set i.val w i.isLt }
  | .id | .cmd | .status | .irqEn | .ctrLo | .ctrHi | .trunc | .offset | .code | .codeBcd | .codeAsc0 | .codeAsc1 => s

/-- GuardedWrite (20_memory R73): dropped with BUSYWR while busy, else stored. -/
def guardedWrite (r : Reg) (w : Word) (s : State) : State :=
  if busy s then rejectBusy s else storeReg r w s

/-- The bus outputs of a completed transfer (20_memory R71). -/
def respond (r : Response) (s : State) : State := { s with resp := some r }

end Sys2Proof.Machine
end

