-- ==== Sys2Proof/Machine/Sha1.lean ====
section
/-! DEFINITION. SHA-1: 41_hmac_sha1 R151 to R157 (the spec's own general knowledge, 93 G1). -/

namespace Sys2Proof.Machine

/-- Five 32-bit words: a hash value (H0, H1, H2, H3, H4) and the working variables (a, b, c, d, e) (41_hmac_sha1 R152, R156). -/
structure Chain where
  a : Word
  b : Word
  c : Word
  d : Word
  e : Word
  deriving DecidableEq, Repr

/-- The number of zero bytes in the padding: the least k with (len + 1 + k + 8) mod 64 = 0 (41_hmac_sha1 R151). -/
def padZeros (len : Nat) : Nat :=
  (Config.sha1BlockBytes - (len + 9) % Config.sha1BlockBytes) % Config.sha1BlockBytes

/-- Pad(M) (41_hmac_sha1 R151). -/
def sha1Pad (m : List Byte) : List Byte :=
  m ++ [0x80] ++ zeros (padZeros m.length) ++ beBytes 8 (8 * m.length)

/-- The first `n` 64-byte blocks of a string, in order (41_hmac_sha1 R151). -/
def sha1Blocks : Nat → List Byte → List (List Byte)
  | 0, _ => []
  | n + 1, bs => bs.take Config.sha1BlockBytes :: sha1Blocks n (bs.drop Config.sha1BlockBytes)

/-- The initial hash value (41_hmac_sha1 R152). -/
def sha1Iv : Chain := ⟨0x67452301, 0xEFCDAB89, 0x98BADCFE, 0x10325476, 0xC3D2E1F0⟩

/-- The round function f(t, b, c, d) (41_hmac_sha1 R153). -/
def sha1F (t : Nat) (b c d : Word) : Word :=
  if t < 20 then (b &&& c) ^^^ (~~~b &&& d)
  else if t < 40 then b ^^^ c ^^^ d
  else if t < 60 then (b &&& c) ^^^ (b &&& d) ^^^ (c &&& d)
  else b ^^^ c ^^^ d

/-- The round constant K(t) (41_hmac_sha1 R154). -/
def sha1K (t : Nat) : Word :=
  if t < 20 then 0x5A827999
  else if t < 40 then 0x6ED9EBA1
  else if t < 60 then 0x8F1BBCDC
  else 0xCA62C1D6

/-- W[0] to W[n-1] read from a block: W[t] = fromBE(blk[4t .. 4t+3]) (41_hmac_sha1 R155). -/
def blockWords (n : Nat) (blk : List Byte) : List Word := (List.range n).map (wordAt blk)

/-- The next schedule word from those before it, latest first:
ROTL32(W[t-3] XOR W[t-8] XOR W[t-14] XOR W[t-16], 1) (41_hmac_sha1 R155). -/
def nextScheduleWord (latestFirst : List Word) : Word :=
  (latestFirst.getD 2 0 ^^^ latestFirst.getD 7 0 ^^^ latestFirst.getD 13 0 ^^^ latestFirst.getD 15 0).rotateLeft 1

/-- `n` further schedule words in front of those before them. -/
def extendSchedule : Nat → List Word → List Word
  | 0, ws => ws
  | n + 1, ws => extendSchedule n (nextScheduleWord ws :: ws)

/-- The message schedule W[0] to W[79] of a 64-byte block (41_hmac_sha1 R155). -/
def sha1Schedule (blk : List Byte) : List Word := (extendSchedule 64 (blockWords 16 blk).reverse).reverse

/-- Round t with schedule word w (41_hmac_sha1 R156). -/
def sha1Round (t : Nat) (w : Word) (v : Chain) : Chain :=
  { a := v.a.rotateLeft 5 + sha1F t v.b v.c v.d + v.e + sha1K t + w
    b := v.a
    c := v.b.rotateLeft 30
    d := v.c
    e := v.d }

/-- The rounds from t on, one for each schedule word left (41_hmac_sha1 R156). -/
def sha1Rounds : Nat → List Word → Chain → Chain
  | _, [], v => v
  | t, w :: ws, v => sha1Rounds (t + 1) ws (sha1Round t w v)

/-- SHA1Compress (41_hmac_sha1 R156). -/
def sha1Compress (h : Chain) (blk : List Byte) : Chain :=
  let v := sha1Rounds 0 (sha1Schedule blk) h
  { a := h.a + v.a, b := h.b + v.b, c := h.c + v.c, d := h.d + v.d, e := h.e + v.e }

/-- BE_4(H0) ++ ... ++ BE_4(H4): 20 bytes (41_hmac_sha1 R157). -/
def chainBytes (h : Chain) : List Byte := bytesOfWords [h.a, h.b, h.c, h.d, h.e]

/-- SHA1(M) (41_hmac_sha1 R157). -/
def sha1 (m : List Byte) : List Byte :=
  let p := sha1Pad m
  chainBytes ((sha1Blocks (p.length / Config.sha1BlockBytes) p).foldl sha1Compress sha1Iv)

end Sys2Proof.Machine
end

