-- ==== Sys2Proof/Machine/TimeStep.lean ====
section
/-! DEFINITION. The time-step counter and TSTEP: 40_timestep R130 to R137. -/

namespace Sys2Proof.Machine

/-- TimeStep(t): exact unsigned floor division by T_STEP (40_timestep R131). -/
def timeStep (t : DWord) : DWord := BitVec.ofNat 64 (t.toNat / Config.tStep)

/-- CounterBytes(c) = BE_8(c) (40_timestep R134). -/
def counterBytes (c : DWord) : List Byte := be8 c

/-- reg.CTR_HI <- c[63:32], reg.CTR_LO <- c[31:0] (40_timestep R132). -/
def writeCtr (c : DWord) (s : State) : State :=
  { s with ctrHi := c.extractLsb' 32 32, ctrLo := c.extractLsb' 0 32 }

/-- Exec(TSTEP): CTR <- TimeStep(TIMEVAL) (40_timestep R132). -/
def tstepResults (s : State) : State := writeCtr (timeStep (timeVal s)) s

/-- TSTEP (40_timestep R132). -/
def execTstep (s : State) : Host.Outcome State Fault Refusal := runCommand .tstep tstepResults s

end Sys2Proof.Machine
end

