-- ==== Sys2Proof/Machine/HmacSha1.lean ====
section
/-! DEFINITION. HMAC-SHA1 and the HMAC command: 41_hmac_sha1 R160 to R172. -/

namespace Sys2Proof.Machine

/-- HMAC_SHA1(K, m) for a key of at most 64 bytes (41_hmac_sha1 R160). The engine computes `hmacEngine`; this is the construction it is
an instance of (R161). -/
def hmacSha1 (k m : List Byte) : List Byte :=
  let k0 := k ++ zeros (Config.sha1BlockBytes - k.length)
  let ipad := List.replicate Config.sha1BlockBytes (0x36 : Byte)
  let opad := List.replicate Config.sha1BlockBytes (0x5C : Byte)
  sha1 (xorBytes k0 opad ++ sha1 (xorBytes k0 ipad ++ m))

/-- IB1 or OB1: the 32 key bytes under the pad byte, then 32 pad bytes (41_hmac_sha1 R161). -/
def keyBlock (pad : Byte) (k : List Byte) : List Byte :=
  xorBytes k (List.replicate 32 pad) ++ List.replicate 32 pad

/-- IB2: the counter block (41_hmac_sha1 R161). -/
def counterBlock (c : DWord) : List Byte := counterBytes c ++ [0x80] ++ zeros 47 ++ beBytes 8 576

/-- OB2: the inner-digest block (41_hmac_sha1 R161). -/
def innerBlock (inner : List Byte) : List Byte := inner ++ [0x80] ++ zeros 35 ++ beBytes 8 672

/-- The inner digest (41_hmac_sha1 R161). -/
def innerDigest (k : List Byte) (c : DWord) : List Byte :=
  chainBytes (sha1Compress (sha1Compress sha1Iv (keyBlock 0x36 k)) (counterBlock c))

/-- HMAC_SHA1(KEYBYTES, BE_8(c)) as the engine computes it: four compressions of fixed blocks (41_hmac_sha1 R161). -/
def hmacEngine (k : List Byte) (c : DWord) : List Byte :=
  chainBytes (sha1Compress (sha1Compress sha1Iv (keyBlock 0x5C k)) (innerBlock (innerDigest k c)))

/-- reg.DIGESTi <- fromBE(D[4i .. 4i+3]) (41_hmac_sha1 R170). -/
def writeDigest (d : List Byte) (s : State) : State := { s with digest := digestWords d }

/-- Exec(HMAC): DIGEST <- HMAC_SHA1(KEYBYTES, BE_8(CTRVAL)) (41_hmac_sha1 R170). -/
def hmacResults (s : State) : State := writeDigest (hmacEngine (keyBytes s) (ctrVal s)) s

/-- HMAC (41_hmac_sha1 R170). -/
def execHmac (s : State) : Host.Outcome State Fault Refusal := runCommand .hmac hmacResults s

end Sys2Proof.Machine
end

