-- ==== Sys2Proof/Machine/TruncFormat.lean ====
section
/-! DEFINITION. Dynamic truncation and the code formatter, DTRUNC and FMT6: 42_truncate_format R200 to R212. -/

namespace Sys2Proof.Machine

/-- What DynTrunc returns: a 4-bit offset and a 32-bit value (42_truncate_format R201). -/
structure Truncated where
  off : BitVec 4
  val : Word
  deriving DecidableEq, Repr

/-- DynTrunc(D) for a 20-byte digest (42_truncate_format R201). -/
def dynTrunc (d : List Byte) : Truncated :=
  let off := d.getD 19 0 &&& 0x0F
  let raw := BitVec.ofNat 32 (fromBE ((d.drop off.toNat).take 4))
  { off := off.setWidth 4, val := raw &&& 0x7FFFFFFF }

/-- What Format6 returns: the binary code, six BCD digits and six characters (42_truncate_format R210). -/
structure Formatted where
  code : BitVec 20
  bcd : BitVec 24
  chars : List Byte
  deriving DecidableEq, Repr

/-- d[k] = (code div 10^(5-k)) mod 10; d[0] is the 10^5 digit (42_truncate_format R210). -/
def codeDigit (code k : Nat) : Nat := code / 10 ^ (5 - k) % 10

/-- d[0] to d[5] (42_truncate_format R210). -/
def codeDigits (code : Nat) : List Nat := (List.range Config.digits).map (codeDigit code)

/-- Format6(v) (42_truncate_format R210): the code is v mod 10^6, its BCD form {d[0], ..., d[5]}, its characters 0x30 + d[k]. -/
def format6 (v : Word) : Formatted :=
  let code := v.toNat % Config.modulus
  { code := BitVec.ofNat 20 code
    bcd := BitVec.ofNat 24 ((codeDigits code).foldl (fun acc d => 16 * acc + d) 0)
    chars := (codeDigits code).map fun d => BitVec.ofNat 8 (0x30 + d) }

/-- reg.OFFSET <- zext_32(off), reg.TRUNC <- val (42_truncate_format R202). -/
def writeTrunc (t : Truncated) (s : State) : State :=
  { s with offset := t.off.setWidth 32, trunc := t.val }

/-- The four code registers (42_truncate_format R211); CODE_ASC1 holds characters 4 and 5 above sixteen zero bits. -/
def writeCode (f : Formatted) (s : State) : State :=
  { s with
    code := f.code.setWidth 32
    codeBcd := f.bcd.setWidth 32
    codeAsc0 := BitVec.ofNat 32 (fromBE (f.chars.take 4))
    codeAsc1 := BitVec.ofNat 16 (fromBE ((f.chars.drop 4).take 2)) ++ 0#16 }

/-- Exec(DTRUNC): OFFSET, TRUNC <- DynTrunc(DIGESTBYTES) (42_truncate_format R202). -/
def dtruncResults (s : State) : State := writeTrunc (dynTrunc (digestBytes s)) s

/-- DTRUNC (42_truncate_format R202). -/
def execDtrunc (s : State) : Host.Outcome State Fault Refusal := runCommand .dtrunc dtruncResults s

/-- Exec(FMT6): the code registers <- Format6(TRUNC) (42_truncate_format R211). -/
def fmt6Results (s : State) : State := writeCode (format6 s.trunc) s

/-- FMT6 (42_truncate_format R211). -/
def execFmt6 (s : State) : Host.Outcome State Fault Refusal := runCommand .fmt6 fmt6Results s

end Sys2Proof.Machine
end

