-- ==== Sys2Proof/Machine/Control.lean ====
section
/-! DEFINITION. NOP, TOTP and ZEROIZE: 43_control R235, R236 and R241. -/

namespace Sys2Proof.Machine

/-- Exec(NOP) does nothing (43_control R235). -/
def nopResults (s : State) : State := s

/-- NOP (43_control R235). -/
def execNop (s : State) : Host.Outcome State Fault Refusal := runCommand .nop nopResults s

/-- Exec(TOTP): the four steps of the algorithm from TIME and KEY; the old CTR, DIGEST and TRUNC are not read (43_control R236). -/
def totpResults (s : State) : State :=
  let c := timeStep (timeVal s)
  let d := hmacEngine (keyBytes s) c
  let t := dynTrunc d
  writeCode (format6 t.val) (writeTrunc t (writeDigest d (writeCtr c s)))

/-- TOTP (43_control R236). -/
def execTotp (s : State) : Host.Outcome State Fault Refusal := runCommand .totp totpResults s

/-- Exec(ZEROIZE): the key, KEYWR and every derived register <- 0; TIME, IRQ_EN and CMD stay (43_control R241). -/
def zeroizeResults (s : State) : State :=
  { s with
    key := Vector.replicate 8 0
    keywr := 0
    ctrHi := 0
    ctrLo := 0
    digest := Vector.replicate 5 0
    trunc := 0
    offset := 0
    code := 0
    codeBcd := 0
    codeAsc0 := 0
    codeAsc1 := 0 }

/-- ZEROIZE (43_control R241). -/
def execZeroize (s : State) : Host.Outcome State Fault Refusal := runCommand .zeroize zeroizeResults s

end Sys2Proof.Machine
end

