-- ==== Sys2Proof/Machine/Dispatch.lean ====
section
/-! DEFINITION. One arm per command (43_control R233). -/

namespace Sys2Proof.Machine

def exec (i : Instr) (s : State) : Host.Outcome State Fault Refusal :=
  match i with
  | .nop => Sys2Proof.Machine.execNop s
  | .tstep => Sys2Proof.Machine.execTstep s
  | .hmac => Sys2Proof.Machine.execHmac s
  | .dtrunc => Sys2Proof.Machine.execDtrunc s
  | .fmt6 => Sys2Proof.Machine.execFmt6 s
  | .totp => Sys2Proof.Machine.execTotp s
  | .zeroize => Sys2Proof.Machine.execZeroize s

end Sys2Proof.Machine
end

