-- ==== Sys2Proof/Machine/Bus.lean ====
section
/-! DEFINITION. Serving a bus transfer, and one move of the schedule: 20_memory R72 and R73, 43_control R230 and R234. -/

namespace Sys2Proof.Machine

/-- BusRead(off) -> (data, err) (20_memory R72). -/
def busRead (off : BitVec 8) (be : BitVec 4) (s : State) : Word × Bool :=
  if !(alignedOffset off && fullEnable be) then (0, true)
  else
    match regAt off with
    | some r => (readReg r s, false)
    | none => (0, true)

/-- The `err` of BusWrite(off, W) (20_memory R73, R80). -/
def busWriteErr (off : BitVec 8) (be : BitVec 4) : Bool :=
  if !(alignedOffset off && fullEnable be) then true
  else
    match regAt off with
    | some r => readOnly r
    | none => true

/-- CommandRequest(W) (43_control R230): rejected while busy; else an illegal word is ILLEGAL_CMD and a legal one runs. -/
def commandRequest (w : Word) (s : State) : Host.Outcome State Fault Refusal :=
  match s.seq with
  | .busy _ => .next (rejectBusy s)
  | .idle =>
    match decode w with
    | .error _ => .next (rejectIllegal w s)
    | .ok i => exec i s

/-- The effect of a write that is not a bus error, by register (20_memory R73). -/
def writeReg (r : Reg) (w : Word) (s : State) : Host.Outcome State Fault Refusal :=
  match r with
  | .cmd => commandRequest w s
  | .status => .next (statusW1c w s)
  | .irqEn => .next (writeIrqEn w s)
  | .timeLo => .next (guardedWrite .timeLo w s)
  | .timeHi => .next (guardedWrite .timeHi w s)
  | .key i => .next (guardedWrite (.key i) w s)
  | .digest i => .next (guardedWrite (.digest i) w s)
  | .id | .ctrLo | .ctrHi | .trunc | .offset | .code | .codeBcd | .codeAsc0 | .codeAsc1 => .next s

/-- BusWrite(off, W): a bus error changes nothing (20_memory R73, R80). -/
def busWrite (off : BitVec 8) (be : BitVec 4) (w : Word) (s : State) : Host.Outcome State Fault Refusal :=
  if busWriteErr off be then .next s
  else
    match regAt off with
    | some r => writeReg r w s
    | none => .next s

/-- What a transfer answers (20_memory R72, R73). -/
def response (t : Transfer) (s : State) : Response :=
  match t with
  | .read off be => .read (busRead off be s).1 (busRead off be s).2
  | .write off be _ => .write (busWriteErr off be)

/-- One whole transfer: its response and its effect, in one step (20_memory R82). -/
def serve (t : Transfer) (s : State) : Host.Outcome State Fault Refusal :=
  match t with
  | .read off be => .next (respond (response (.read off be) s) s)
  | .write off be w => busWrite off be w (respond (response (.write off be w) s) s)

/-- The engine's turn: the commit is enabled exactly when a command is in flight (43_control R231, R234); else nothing changes. -/
def engineTurn (s : State) : Host.Outcome State Fault Refusal :=
  match s.seq with
  | .idle => .next s
  | .busy op => exec op s

/-- One move (43_control R234). A host transfer while `rst_n = 0` has no step (70_reset_and_hazards R302). -/
def handleEvent (e : Event) (s : State) : Host.Outcome State Fault Refusal :=
  match e with
  | .host t => if s.rstN then serve t s else .refused .transferDuringReset
  | .engine => engineTurn s
  | .resetAssert _ => .next (resetEngine s)
  | .resetRelease => .next { s with rstN := true }

/-- The next move: the head of the schedule, and the engine's turn when nothing is scheduled, so that a command in flight commits
(70_reset_and_hazards R320; log entries 1 and 2). -/
def nextMove (s : State) : Host.Outcome State Fault Refusal :=
  match s.schedule with
  | [] => engineTurn s
  | e :: rest => handleEvent e { s with schedule := rest }

end Sys2Proof.Machine
end

