-- ==== Sys2Proof/Machine/HostNotation.lean ====
section
/-! DEFINITION. The host notation: 30_encoding R120 to R122, and the entry-point sequence of 43_control R239. -/

namespace Sys2Proof.Machine

/-- `WR <REG>, <imm32>` (30_encoding R120). -/
def wr (r : Reg) (imm : Word) : Transfer := .write (regOffset r) 0xF imm

/-- `RD <REG>` (30_encoding R120). -/
def rd (r : Reg) : Transfer := .read (regOffset r) 0xF

/-- `WR @<offset>, <imm32>` (30_encoding R120). -/
def wrAt (off : BitVec 8) (imm : Word) : Transfer := .write off 0xF imm

/-- `RD @<offset>` (30_encoding R120). -/
def rdAt (off : BitVec 8) : Transfer := .read off 0xF

/-- A command mnemonic alone on a line: one write of its word to CMD (30_encoding R121). -/
def issue (i : Instr) : Transfer := wr .cmd (encode i)

/-- `SETTIME <t64>` (30_encoding R122). -/
def setTime (t : DWord) : List Transfer := [wr .timeLo (t.extractLsb' 0 32), wr .timeHi (t.extractLsb' 32 32)]

/-- `LOADKEY <k0>,...,<k7>` (30_encoding R122). -/
def loadKey (k : Vector Word 8) : List Transfer :=
  [wr (.key 0) k[0], wr (.key 1) k[1], wr (.key 2) k[2], wr (.key 3) k[3],
   wr (.key 4) k[4], wr (.key 5) k[5], wr (.key 6) k[6], wr (.key 7) k[7]]

/-- `CLRST` (30_encoding R122). -/
def clrst : Transfer := wr .status 0x0000000E

/-- `RDCODE` (30_encoding R122). -/
def rdCode : List Transfer := [rd .codeAsc0, rd .codeAsc1]

/-- The moves of a `WAIT` that polls STATUS `polls` times before the commit: those reads, the engine's turn, and the read that sees
BUSY = 0 (30_encoding R122). How many polls see BUSY = 1 is open (93_implementation_defined U14): a parameter. -/
def waitMoves (polls : Nat) : List Event :=
  List.replicate polls (.host (rd .status)) ++ [.engine, .host (rd .status)]

/-- The host sequence of 43_control R239: LOADKEY, SETTIME, TOTP, WAIT, with RDCODE left to the caller (it reads CODESTR). -/
def generateMoves (k : Vector Word 8) (t : DWord) (polls : Nat) : List Event :=
  (loadKey k ++ setTime t ++ [issue .totp]).map .host ++ waitMoves polls

/-- A command waited to its commit: its write to CMD, then a `WAIT` that polls `polls` times before the commit (30_encoding R121,
R122). -/
def issueAndWait (i : Instr) (polls : Nat) : List Event := .host (issue i) :: waitMoves polls

/-- The four commands of 43_control R237, each waited to its commit; `polls` says how many polls see each one busy. -/
def fourStepMoves (polls : Instr → Nat) : List Event :=
  issueAndWait .tstep (polls .tstep) ++ issueAndWait .hmac (polls .hmac) ++ issueAndWait .dtrunc (polls .dtrunc)
    ++ issueAndWait .fmt6 (polls .fmt6)

end Sys2Proof.Machine
end

