-- ==== Sys2Proof/Machine/Step.lean ====
section
/-! DEFINITION. One step of the machine (43_control R234), and where it takes its next command from. -/

namespace Sys2Proof.Machine

/-- One step: the next move of the schedule (43_control R234, 20_memory R85). -/
def step (s : State) : Host.Outcome State Fault Refusal := Sys2Proof.Machine.nextMove s

/-- The engine fetches nothing (00_scope R3): a command reaches it as a host write of its word to CMD. So the word, bits above
`nbits` zero, is put at the head of the moves to come as that write, and the engine is where a request is not turned away: out of
reset and idle. From `State.reset` only the schedule changes. Log entries 9 and 10. -/
def State.withFetchWord (s : State) (nbits w : Nat) : State :=
  { s with
    rstN := true
    seq := .idle
    hidden := Hidden.zero
    schedule := .host (Sys2Proof.Machine.wr .cmd (BitVec.ofNat 32 (w % 2 ^ nbits))) :: s.schedule }

end Sys2Proof.Machine
end

