-- ==== Sys2Proof/Safety.lean ====
section
/-! DEFINITION. The terms claims use: whose move it is, what the spec's numbers are, and the invariant of a safe run. -/

namespace Sys2Proof.Machine

/-- The next move is the host's transfer `t`. -/
def hostMoves (s : State) (t : Transfer) : Prop := s.schedule.head? = some (.host t)

/-- The next move is the host's write of `w` to the register `r` (30_encoding R120). -/
def hostWrites (s : State) (r : Reg) (w : Word) : Prop := hostMoves s (wr r w)

/-- The next move is the engine's: its turn is scheduled, or nothing is (log entry 2). -/
def engineMoves (s : State) : Prop := s.schedule.head? = none ∨ s.schedule.head? = some .engine

/-- The next move is the commit of `op` (43_control R231). -/
def commits (op : Instr) (s : State) : Prop := s.seq = .busy op ∧ engineMoves s

/-- The next move asserts reset (log entry 6). -/
def resetMoves (s : State) : Prop := ∃ lost, s.schedule.head? = some (.resetAssert lost)

/-- The state as the next move finds it: the move taken off the schedule. -/
def afterMove (s : State) : State := { s with schedule := s.schedule.tail }

/-- `t` follows from `s` by serving exactly the moves `es`, one step each. -/
def RunsTo (s : State) (es : List Event) (t : State) : Prop :=
  Sys2Proof.core.run es.length { s with schedule := es } = .next t

/-- The data registers of 10_state R43 and R44, in the order of the register map. -/
def dataRegs (s : State) : List Word :=
  [s.timeLo, s.timeHi, s.ctrLo, s.ctrHi] ++ s.key.toList ++ s.digest.toList
    ++ [s.trunc, s.offset, s.code, s.codeBcd, s.codeAsc0, s.codeAsc1]

/-- `t` is `s` with `op` accepted (43_control R230, 10_state R45 row "legal command accepted"). What the hidden working state then
holds is free (log entry 4), so it is not constrained. -/
def AcceptedFrom (op : Instr) (s t : State) : Prop :=
  t = { s with
    cmd := encode op, done := false, err := false, errcode := .noError
    seq := .busy op, hidden := t.hidden, draws := s.draws + 1 }

/-- A host write of the word of `op` while a command is in flight changes only BUSYWR (and the bus response) (20_memory R74). -/
def RejectedWhileBusy (op : Instr) : Prop :=
  ∀ (s : State) (current : Instr), s.seq = .busy current → s.rstN = true → hostMoves s (issue op) →
    step s = .next { s with schedule := s.schedule.tail, busywr := true, resp := some (.write false) }

/-- CTR is the floor of TIME over 30, both as numbers (40_timestep R131, R132). -/
def CounterOfTime (s t : State) : Prop :=
  t.ctrHi.toNat * 2 ^ 32 + t.ctrLo.toNat = (s.timeHi.toNat * 2 ^ 32 + s.timeLo.toNat) / 30

/-- DIGEST is HMAC-SHA1 of the counter's eight bytes under the key (41_hmac_sha1 R160, R170). -/
def DigestOf (key : Vector Word 8) (c : DWord) (digest : Vector Word 5) : Prop :=
  bytesOfWords digest.toList = hmacSha1 (bytesOfWords key.toList) (be8 c)

/-- {DIGEST0, DIGEST1, DIGEST2, DIGEST3, DIGEST4} as a 160-bit number (42_truncate_format R201). -/
def digestNumber (d : Vector Word 5) : Nat :=
  (((d[0].toNat * 2 ^ 32 + d[1].toNat) * 2 ^ 32 + d[2].toNat) * 2 ^ 32 + d[3].toNat) * 2 ^ 32 + d[4].toNat

/-- OFFSET and TRUNC in terms of the 160-bit digest X: off = X[3:0], raw = X[159 - 8 off : 128 - 8 off], bit 31 cleared
(42_truncate_format R201, R202). -/
def TruncationOf (d : Vector Word 5) (offset trunc : Word) : Prop :=
  offset.toNat = digestNumber d % 16 ∧
    trunc.toNat = digestNumber d / 2 ^ (128 - 8 * (digestNumber d % 16)) % 2 ^ 32 % 2 ^ 31

/-- The four code registers of `t` show `v mod 10^6` in binary, BCD and ASCII (42_truncate_format R210, R211). -/
def CodeOf (v : Word) (t : State) : Prop :=
  let code := v.toNat % 1000000
  let d := fun k => code / 10 ^ (5 - k) % 10
  t.code.toNat = code ∧
    t.codeBcd.toNat = d 0 * 16 ^ 5 + d 1 * 16 ^ 4 + d 2 * 16 ^ 3 + d 3 * 16 ^ 2 + d 4 * 16 + d 5 ∧
    t.codeAsc0.toNat = (0x30 + d 0) * 2 ^ 24 + (0x30 + d 1) * 2 ^ 16 + (0x30 + d 2) * 2 ^ 8 + (0x30 + d 3) ∧
    t.codeAsc1.toNat = (0x30 + d 4) * 2 ^ 24 + (0x30 + d 5) * 2 ^ 16

/-- BCD digit k of CODE_BCD, digit 0 in bits 23:20 (10_state R38). -/
def bcdDigit (s : State) (k : Nat) : Nat := s.codeBcd.toNat / 16 ^ (5 - k) % 16

/-- The format laws of 42_truncate_format R212, with the reserved bits of 10_state R38 and R39. -/
def CodeFormatted (s : State) : Prop :=
  s.code.toNat < 1000000 ∧
    (∀ k < 6, bcdDigit s k ≤ 9) ∧
    s.code.toNat = bcdDigit s 0 * 10 ^ 5 + bcdDigit s 1 * 10 ^ 4 + bcdDigit s 2 * 10 ^ 3 + bcdDigit s 3 * 10 ^ 2
      + bcdDigit s 4 * 10 + bcdDigit s 5 ∧
    (∀ k < 6, ((codeStr s).getD k 0).toNat = 0x30 + bcdDigit s k) ∧
    s.codeBcd.toNat < 2 ^ 24 ∧
    s.codeAsc1.toNat % 2 ^ 16 = 0

/-- No code has been formatted since reset or ZEROIZE (10_state R39). -/
def CodeCleared (s : State) : Prop := s.code = 0 ∧ s.codeBcd = 0 ∧ s.codeAsc0 = 0 ∧ s.codeAsc1 = 0

/-- What every state of a run satisfies; a step from such a state leads only to such states. -/
structure State.Inv (s : State) : Prop where
  /-- While BUSY = 1, DONE = 0 and ERR = 0 (10_state R26, R27). -/
  busyFlags : busy s = true → s.done = false ∧ s.err = false
  /-- CMD holds the word of the command in flight (10_state R23, 20_memory R74). -/
  busyCmd : ∀ op, s.seq = .busy op → s.cmd = encode op
  /-- A command that needs the key is in flight only with KEYV = 1 (10_state R29: fail closed). -/
  busyKey : ∀ op, s.seq = .busy op → needsKey op = true → keyv s = true
  /-- ERRCODE is 0 exactly when ERR is 0 (10_state R27). -/
  errCode : s.err = true ↔ s.errcode ≠ .noError
  /-- Hidden working state is zero whenever no command is in flight (10_state R42). -/
  hiddenIdle : busy s = false → s.hidden = Hidden.zero
  /-- TRUNC[31] = 0 (10_state R35). -/
  truncTop : s.trunc.toNat < 2 ^ 31
  /-- OFFSET[31:4] = 0 (10_state R36). -/
  offsetSmall : s.offset.toNat ≤ 15
  /-- The code registers are cleared or hold a formatted code (10_state R37 to R39, 42_truncate_format R212). -/
  codeShape : CodeCleared s ∨ CodeFormatted s
  /-- While `rst_n = 0` every register holds its reset value (70_reset_and_hazards R300). -/
  resetHeld : s.rstN = false → s = resetEngine s

end Sys2Proof.Machine
end

