-- ==== Sys2Proof/Certificates/Slice0/Obligations.lean ====
section
/-! DEFINITION. The statements for the provers. -/

open Sys2Proof Sys2Proof.Machine

/-! ### Encoding and the register map -/

/-- 30_encoding R104: Decode is total, legal exactly on RSVD = 0 with one of the seven OP values, and a legal word is the one word of
its command (R102); every other word is illegal, and its request while idle is ILLEGAL_CMD. -/
def Obligations.DecodeIsTheOpcodeMap : Prop :=
  (∀ (w : Word) (i : Instr), decode w = .ok i ↔ w = encode i) ∧
    (∀ w : Word,
      (∃ e, decode w = .error e) ↔
        (w.toNat / 2 ^ 8 ≠ 0 ∨ w.toNat % 2 ^ 8 ∉ [0x00, 0x01, 0x02, 0x03, 0x04, 0x05, 0x0F])) ∧
    ∀ (s : State) (w : Word) (e : Illegal), s.seq = .idle → decode w = .error e →
      ∃ t, commandRequest w s = .next t ∧ t.err = true ∧ t.errcode = .illegalCmd

/-- 30_encoding R102, R105: the seven words of the opcode map decode to their commands, and words with RSVD != 0 or an unassigned OP
do not. -/
def Obligations.ListedWordsDecode : Prop :=
  decode 0x00000000 = .ok .nop ∧ decode 0x00000001 = .ok .tstep ∧ decode 0x00000002 = .ok .hmac ∧
    decode 0x00000003 = .ok .dtrunc ∧ decode 0x00000004 = .ok .fmt6 ∧ decode 0x00000005 = .ok .totp ∧
    decode 0x0000000F = .ok .zeroize ∧ decode 0x00000006 = .error .unassignedOp ∧
    decode 0x00000105 = .error .reservedBits ∧ decode 0x80000000 = .error .reservedBits

/-- 10_state R21, R40: every register stands at the offset the register map lists; an offset leads to that register and to no other, and
to none exactly when it is misaligned or one of the reserved offsets 0x6C to 0xFC. -/
def Obligations.RegisterMapIsExact : Prop :=
  (regOffset .id = 0x00 ∧ regOffset .cmd = 0x04 ∧ regOffset .status = 0x08 ∧ regOffset .irqEn = 0x0C ∧
    regOffset .timeLo = 0x10 ∧ regOffset .timeHi = 0x14 ∧ regOffset .ctrLo = 0x18 ∧ regOffset .ctrHi = 0x1C ∧
    regOffset (.key 0) = 0x20 ∧ regOffset (.key 1) = 0x24 ∧ regOffset (.key 2) = 0x28 ∧ regOffset (.key 3) = 0x2C ∧
    regOffset (.key 4) = 0x30 ∧ regOffset (.key 5) = 0x34 ∧ regOffset (.key 6) = 0x38 ∧ regOffset (.key 7) = 0x3C ∧
    regOffset (.digest 0) = 0x40 ∧ regOffset (.digest 1) = 0x44 ∧ regOffset (.digest 2) = 0x48 ∧
    regOffset (.digest 3) = 0x4C ∧ regOffset (.digest 4) = 0x50 ∧ regOffset .trunc = 0x54 ∧ regOffset .offset = 0x58 ∧
    regOffset .code = 0x5C ∧ regOffset .codeBcd = 0x60 ∧ regOffset .codeAsc0 = 0x64 ∧ regOffset .codeAsc1 = 0x68) ∧
  (∀ (off : BitVec 8) (r : Reg), regAt off = some r ↔ off = regOffset r) ∧
    ∀ off : BitVec 8, regAt off = none ↔ (off.toNat % 4 ≠ 0 ∨ 0x6C ≤ off.toNat)

/-! ### A step runs the decoded command -/

/-- 43_control R230, R234: out of reset and idle, a CMD write of a legal word makes the step the command's meaning, on the state with
the transfer taken off the schedule and answered with no error. -/
def Obligations.StepRunsTheDecodedCommand : Prop :=
  ∀ (s : State) (w : Word) (i : Instr), s.rstN = true → s.seq = .idle → hostWrites s .cmd w → decode w = .ok i →
    step s = exec i { s with schedule := s.schedule.tail, resp := some (.write false) }

/-- 43_control R231: the engine's move with a command in flight is that command's meaning, its commit. That an empty schedule is the
engine's move is the model's choice (log entry 2), and so is the step of an idle engine, in which only the move is taken off (log
entry 7): R234 enables the commit only while busy. -/
def Obligations.EngineMoveRunsTheCommandInFlight : Prop :=
  ∀ s : State, engineMoves s →
    (∀ op, s.seq = .busy op → step s = exec op (afterMove s)) ∧ (s.seq = .idle → step s = .next (afterMove s))

/-- The model's own placing of a fetched word (log entries 9 and 10): from any state, the next step runs exactly the command that
`decodeTableWord` reads. -/
def Obligations.FetchedWordRunsNext : Prop :=
  ∀ (s : State) (w : Nat) (i : Instr), decodeTableWord 32 w = some i →
    step (s.withFetchWord 32 w)
      = exec i { s with rstN := true, seq := .idle, hidden := Hidden.zero, resp := some (.write false) }

/-- 43_control R234, 70_reset_and_hazards R302: the machine always has a step, but for a host transfer while `rst_n = 0`. The refusal by
name and the two reset moves are the model's (log entry 6); so are the step of an idle engine (log entry 7) and the engine's move on an
empty schedule (log entry 2), which R234 does not give. -/
def Obligations.OnlyTransfersDuringResetHaveNoStep : Prop :=
  ∀ s : State,
    ((s.rstN = false ∧ ∃ t, hostMoves s t) → step s = .refused .transferDuringReset) ∧
      (¬ (s.rstN = false ∧ ∃ t, hostMoves s t) → ∃ t, step s = .next t)

/-! ### The seven commands -/

/-- 43_control R235. -/
def Obligations.NopCommand : Prop :=
  (∀ w : Word, decode w = .ok .nop ↔ w = 0x00000000) ∧
    (∀ s : State, s.seq = .idle → ∃ t, exec .nop s = .next t ∧ AcceptedFrom .nop s t) ∧
    (∀ s : State, s.seq = .busy .nop →
      exec .nop s = .next { s with hidden := Hidden.zero, seq := .idle, done := true }) ∧
    RejectedWhileBusy .nop

/-- 40_timestep R132. -/
def Obligations.TstepCommand : Prop :=
  (∀ w : Word, decode w = .ok .tstep ↔ w = 0x00000001) ∧
    (∀ s : State, s.seq = .idle → ∃ t, exec .tstep s = .next t ∧ AcceptedFrom .tstep s t) ∧
    (∀ s : State, s.seq = .busy .tstep →
      ∃ t, exec .tstep s = .next t ∧ CounterOfTime s t ∧
        t = { s with ctrHi := t.ctrHi, ctrLo := t.ctrLo, hidden := Hidden.zero, seq := .idle, done := true }) ∧
    RejectedWhileBusy .tstep

/-- 41_hmac_sha1 R170. -/
def Obligations.HmacCommand : Prop :=
  (∀ w : Word, decode w = .ok .hmac ↔ w = 0x00000002) ∧
    (∀ s : State, s.seq = .idle → keyv s = true → ∃ t, exec .hmac s = .next t ∧ AcceptedFrom .hmac s t) ∧
    (∀ s : State, s.seq = .idle → keyv s = false →
      exec .hmac s = .next { s with cmd := 0x00000002, err := true, errcode := .noKey, done := true }) ∧
    (∀ s : State, s.seq = .busy .hmac →
      ∃ t, exec .hmac s = .next t ∧ DigestOf s.key (s.ctrHi ++ s.ctrLo) t.digest ∧
        t = { s with digest := t.digest, hidden := Hidden.zero, seq := .idle, done := true }) ∧
    RejectedWhileBusy .hmac

/-- 42_truncate_format R202. -/
def Obligations.DtruncCommand : Prop :=
  (∀ w : Word, decode w = .ok .dtrunc ↔ w = 0x00000003) ∧
    (∀ s : State, s.seq = .idle → ∃ t, exec .dtrunc s = .next t ∧ AcceptedFrom .dtrunc s t) ∧
    (∀ s : State, s.seq = .busy .dtrunc →
      ∃ t, exec .dtrunc s = .next t ∧ TruncationOf s.digest t.offset t.trunc ∧
        t = { s with offset := t.offset, trunc := t.trunc, hidden := Hidden.zero, seq := .idle, done := true }) ∧
    RejectedWhileBusy .dtrunc

/-- 42_truncate_format R211. -/
def Obligations.Fmt6Command : Prop :=
  (∀ w : Word, decode w = .ok .fmt6 ↔ w = 0x00000004) ∧
    (∀ s : State, s.seq = .idle → ∃ t, exec .fmt6 s = .next t ∧ AcceptedFrom .fmt6 s t) ∧
    (∀ s : State, s.seq = .busy .fmt6 →
      ∃ t, exec .fmt6 s = .next t ∧ CodeOf s.trunc t ∧
        t = { s with
          code := t.code, codeBcd := t.codeBcd, codeAsc0 := t.codeAsc0, codeAsc1 := t.codeAsc1
          hidden := Hidden.zero, seq := .idle, done := true }) ∧
    RejectedWhileBusy .fmt6

/-- 43_control R236. -/
def Obligations.TotpCommand : Prop :=
  (∀ w : Word, decode w = .ok .totp ↔ w = 0x00000005) ∧
    (∀ s : State, s.seq = .idle → keyv s = true → ∃ t, exec .totp s = .next t ∧ AcceptedFrom .totp s t) ∧
    (∀ s : State, s.seq = .idle → keyv s = false →
      exec .totp s = .next { s with cmd := 0x00000005, err := true, errcode := .noKey, done := true }) ∧
    (∀ s : State, s.seq = .busy .totp →
      ∃ t, exec .totp s = .next t ∧ CounterOfTime s t ∧ DigestOf s.key (t.ctrHi ++ t.ctrLo) t.digest ∧
        TruncationOf t.digest t.offset t.trunc ∧ CodeOf t.trunc t ∧
        t = { s with
          ctrHi := t.ctrHi, ctrLo := t.ctrLo, digest := t.digest, offset := t.offset, trunc := t.trunc
          code := t.code, codeBcd := t.codeBcd, codeAsc0 := t.codeAsc0, codeAsc1 := t.codeAsc1
          hidden := Hidden.zero, seq := .idle, done := true }) ∧
    RejectedWhileBusy .totp

/-- 43_control R241. -/
def Obligations.ZeroizeCommand : Prop :=
  (∀ w : Word, decode w = .ok .zeroize ↔ w = 0x0000000F) ∧
    (∀ s : State, s.seq = .idle → ∃ t, exec .zeroize s = .next t ∧ AcceptedFrom .zeroize s t) ∧
    (∀ s : State, s.seq = .busy .zeroize →
      ∃ t, exec .zeroize s = .next t ∧
        (∀ (i : Nat) (h : i < 8), t.key[i] = 0) ∧ (∀ (i : Nat) (h : i < 5), t.digest[i] = 0) ∧
        t = { s with
          key := t.key, keywr := 0x00, ctrHi := 0, ctrLo := 0, digest := t.digest, trunc := 0, offset := 0
          code := 0, codeBcd := 0, codeAsc0 := 0, codeAsc1 := 0
          hidden := Hidden.zero, seq := .idle, done := true }) ∧
    RejectedWhileBusy .zeroize

/-- 10_state R43, 43_control R235 to R241: the frame of every command. Whatever phase the command is in, a next state of its meaning
keeps TIME, IRQ_EN, the bus response, `rst_n` and the moves to come, and each result register unless the command is one that R43 names
as its writer. -/
def Obligations.CommandFrame : Prop :=
  ∀ (i : Instr) (s t : State), exec i s = .next t →
    (t.timeLo = s.timeLo ∧ t.timeHi = s.timeHi ∧ t.doneIe = s.doneIe ∧ t.errIe = s.errIe ∧
      t.resp = s.resp ∧ t.rstN = s.rstN ∧ t.schedule = s.schedule) ∧
    (i ≠ .zeroize → t.key = s.key ∧ t.keywr = s.keywr) ∧
    (i ∉ [.tstep, .totp, .zeroize] → t.ctrHi = s.ctrHi ∧ t.ctrLo = s.ctrLo) ∧
    (i ∉ [.hmac, .totp, .zeroize] → t.digest = s.digest) ∧
    (i ∉ [.dtrunc, .totp, .zeroize] → t.trunc = s.trunc ∧ t.offset = s.offset) ∧
    (i ∉ [.fmt6, .totp, .zeroize] →
      t.code = s.code ∧ t.codeBcd = s.codeBcd ∧ t.codeAsc0 = s.codeAsc0 ∧ t.codeAsc1 = s.codeAsc1) ∧
    (busy s = true → t.cmd = s.cmd ∧ t.err = s.err ∧ t.errcode = s.errcode) ∧
    (busy s = false ∨ s.seq = .busy i → t.busywr = s.busywr)

/-! ### Bus transfers -/

/-- 20_memory R72, 10_state R22: the value each register reads as, what a read transfer answers, and that it changes nothing but the bus
response. -/
def Obligations.ReadsReturnRegistersAndChangeNothing : Prop :=
  (∀ s : State,
    readReg .id s = 0x4F545001 ∧ readReg .cmd s = s.cmd ∧ readReg .status s = statusWord s ∧
      (readReg .irqEn s).toNat = s.doneIe.toNat + 2 * s.errIe.toNat ∧
      readReg .timeLo s = s.timeLo ∧ readReg .timeHi s = s.timeHi ∧ readReg .ctrLo s = s.ctrLo ∧
      readReg .ctrHi s = s.ctrHi ∧ (∀ i : Fin 8, readReg (.key i) s = 0) ∧
      (∀ i : Fin 5, readReg (.digest i) s = s.digest[i]) ∧ readReg .trunc s = s.trunc ∧
      readReg .offset s = s.offset ∧ readReg .code s = s.code ∧ readReg .codeBcd s = s.codeBcd ∧
      readReg .codeAsc0 s = s.codeAsc0 ∧ readReg .codeAsc1 s = s.codeAsc1) ∧
  ∀ (s : State) (off : BitVec 8) (be : BitVec 4), s.rstN = true → hostMoves s (.read off be) →
    (off.toNat % 4 ≠ 0 ∨ be ≠ 0xF → step s = .next { s with schedule := s.schedule.tail, resp := some (.read 0 true) }) ∧
    (off.toNat % 4 = 0 → be = 0xF → 0x6C ≤ off.toNat →
      step s = .next { s with schedule := s.schedule.tail, resp := some (.read 0 true) }) ∧
    (off.toNat % 4 = 0 → be = 0xF → 0x20 ≤ off.toNat → off.toNat ≤ 0x3C →
      step s = .next { s with schedule := s.schedule.tail, resp := some (.read 0 false) }) ∧
    (∀ r : Reg, off = regOffset r → be = 0xF → (∀ i, r ≠ .key i) →
      step s = .next { s with schedule := s.schedule.tail, resp := some (.read (readReg r s) false) })

/-- 20_memory R80: a transfer is a bus error exactly when it is misaligned, partial, to a reserved offset, or a write to a read-only
register; an erroring read returns 0, and an erroring transfer, busy or not, changes nothing but the bus response. -/
def Obligations.BusErrorsChangeNothing : Prop :=
  ∀ (off : BitVec 8) (be : BitVec 4),
    (busWriteErr off be = true ↔
      (off.toNat % 4 ≠ 0 ∨ be ≠ 0xF ∨ 0x6C ≤ off.toNat ∨
        off.toNat ∈ [0x00, 0x18, 0x1C, 0x54, 0x58, 0x5C, 0x60, 0x64, 0x68])) ∧
    (∀ s : State, (busRead off be s).2 = true ↔ (off.toNat % 4 ≠ 0 ∨ be ≠ 0xF ∨ 0x6C ≤ off.toNat)) ∧
    (∀ s : State, s.rstN = true → hostMoves s (.read off be) → (busRead off be s).2 = true →
      step s = .next { s with schedule := s.schedule.tail, resp := some (.read 0 true) }) ∧
    ∀ (s : State) (w : Word), s.rstN = true → hostMoves s (.write off be w) → busWriteErr off be = true →
      step s = .next { s with schedule := s.schedule.tail, resp := some (.write true) }

/-- 60_exceptions R263: while busy, a write to CMD, TIME, KEY or DIGEST changes nothing but BUSYWR (and is answered
without error). -/
def Obligations.BusyWritesOnlySetBusywr : Prop :=
  ∀ (s : State) (r : Reg) (w : Word), s.rstN = true → busy s = true → hostWrites s r w →
    (r = .cmd ∨ r = .timeLo ∨ r = .timeHi ∨ (∃ i, r = .key i) ∨ ∃ i, r = .digest i) →
      step s = .next { s with schedule := s.schedule.tail, busywr := true, resp := some (.write false) }

/-- 20_memory R73, 10_state R32, R33: an idle write to TIME or DIGEST sets the addressed word and nothing else. -/
def Obligations.IdleDataWritesSetOneWord : Prop :=
  ∀ (s : State) (w : Word), s.rstN = true → busy s = false →
    (hostWrites s .timeLo w →
      step s = .next { s with schedule := s.schedule.tail, timeLo := w, resp := some (.write false) }) ∧
    (hostWrites s .timeHi w →
      step s = .next { s with schedule := s.schedule.tail, timeHi := w, resp := some (.write false) }) ∧
    (∀ i : Fin 5, hostWrites s (.digest i) w →
      ∃ t, step s = .next t ∧
        t = { s with schedule := s.schedule.tail, digest := t.digest, resp := some (.write false) } ∧
        ∀ j : Fin 5, t.digest[j] = if j = i then w else s.digest[j])

/-- 10_state R29, R31: an idle write to KEYi sets that word and KEYWR[i], and nothing else. -/
def Obligations.IdleKeyWriteSetsWordAndKeywr : Prop :=
  ∀ (s : State) (i : Fin 8) (w : Word), s.rstN = true → busy s = false → hostWrites s (.key i) w →
    ∃ t, step s = .next t ∧
      t = { s with schedule := s.schedule.tail, key := t.key, keywr := t.keywr, resp := some (.write false) } ∧
      (∀ j : Fin 8, t.key[j] = if j = i then w else s.key[j]) ∧
      ∀ j : Fin 8, t.keywr.getLsbD j.val = (s.keywr.getLsbD j.val || decide (j = i))

/-- 10_state R24: a STATUS write, busy or not, clears exactly the W1C flags written as 1, ERRCODE with ERR. -/
def Obligations.StatusWriteClearsFlags : Prop :=
  ∀ (s : State) (w : Word), s.rstN = true → hostWrites s .status w →
    ∃ t, step s = .next t ∧
      t = { s with
        schedule := s.schedule.tail
        done := t.done, err := t.err, errcode := t.errcode, busywr := t.busywr, resp := some (.write false) } ∧
      (w.getLsbD 1 = true → t.done = false) ∧ (w.getLsbD 1 = false → t.done = s.done) ∧
      (w.getLsbD 2 = true → t.err = false ∧ t.errcode = .noError) ∧
      (w.getLsbD 2 = false → t.err = s.err ∧ t.errcode = s.errcode) ∧
      (w.getLsbD 3 = true → t.busywr = false) ∧ (w.getLsbD 3 = false → t.busywr = s.busywr)

/-- 10_state R30: an IRQ_EN write, busy or not, sets the two enables, and a read shows them with zeros above. -/
def Obligations.IrqEnWriteSetsEnables : Prop :=
  ∀ (s : State) (w : Word), s.rstN = true → hostWrites s .irqEn w →
    ∃ t, step s = .next t ∧
      t = { s with schedule := s.schedule.tail, doneIe := w.getLsbD 0, errIe := w.getLsbD 1, resp := some (.write false) } ∧
      (readReg .irqEn t).toNat = w.toNat % 4

/-- 30_encoding R105: an idle CMD write of a word with RSVD != 0, or with RSVD = 0 and an OP in 0x06-0x0E or 0x10-0xFF, with or without
a key, records the word and ILLEGAL_CMD, and does nothing else. -/
def Obligations.IllegalWordRaisesIllegalCmd : Prop :=
  ∀ (s : State) (w : Word), s.rstN = true → busy s = false → hostWrites s .cmd w →
    (w.toNat / 2 ^ 8 ≠ 0 ∨ (0x06 ≤ w.toNat ∧ w.toNat ≤ 0x0E) ∨ (0x10 ≤ w.toNat ∧ w.toNat ≤ 0xFF)) →
    step s = .next { s with
      schedule := s.schedule.tail
      cmd := w, err := true, errcode := .illegalCmd, done := true, resp := some (.write false) }

/-- 10_state R24, R25, R29, 60_exceptions R261: the STATUS word a read returns, field by field: BUSY is 1 exactly with a command in flight,
ERRCODE is 0 for no error, 1 for ILLEGAL_CMD and 2 for NO_KEY, KEYV is 1 exactly when KEYWR = 0xFF, and nothing stands above. -/
def Obligations.StatusWordFields : Prop :=
  ∀ s : State,
    readReg .status s = statusWord s ∧
      (statusWord s).getLsbD 0 = busy s ∧ (busy s = true ↔ ∃ op, s.seq = .busy op) ∧
      (statusWord s).getLsbD 1 = s.done ∧ (statusWord s).getLsbD 2 = s.err ∧ (statusWord s).getLsbD 3 = s.busywr ∧
      (s.errcode = .noError → (statusWord s).toNat / 2 ^ 4 % 2 ^ 4 = 0) ∧
      (s.errcode = .illegalCmd → (statusWord s).toNat / 2 ^ 4 % 2 ^ 4 = 1) ∧
      (s.errcode = .noKey → (statusWord s).toNat / 2 ^ 4 % 2 ^ 4 = 2) ∧
      (statusWord s).toNat / 2 ^ 8 % 2 ^ 8 = s.keywr.toNat ∧
      (statusWord s).getLsbD 16 = keyv s ∧ (keyv s = true ↔ s.keywr = 0xFF) ∧ (statusWord s).toNat < 2 ^ 17

/-- 60_exceptions R270: the irq equation, in the bits of the STATUS and IRQ_EN words; a command error drives irq if either enable is
set; reset gives 0. -/
def Obligations.IrqEquation : Prop :=
  (∀ s : State,
    irq s = (((readReg .status s).getLsbD 1 && (readReg .irqEn s).getLsbD 0) ||
      (((readReg .status s).getLsbD 2 || (readReg .status s).getLsbD 3) && (readReg .irqEn s).getLsbD 1))) ∧
    (∀ (s : State) (code : ErrCode), irq (cmdError code s) = (s.doneIe || s.errIe)) ∧ irq State.reset = false

/-- 20_memory R77: TIME_LO and TIME_HI written in either order while idle give the same state. -/
def Obligations.TimeHalvesInEitherOrder : Prop :=
  ∀ (s : State) (lo hi : Word), s.rstN = true → busy s = false →
    ∃ t, RunsTo s [.host (wr .timeLo lo), .host (wr .timeHi hi)] t ∧
      RunsTo s [.host (wr .timeHi hi), .host (wr .timeLo lo)] t ∧ timeVal t = hi ++ lo

/-! ### Reset -/

/-- 70_reset_and_hazards R301: the reset values. -/
def Obligations.ResetValues : Prop :=
  readReg .id State.reset = 0x4F545001 ∧ (∀ r : Reg, r ≠ .id → readReg r State.reset = 0) ∧
    (∀ (i : Nat) (h : i < 8), State.reset.key[i] = 0) ∧ State.reset.seq = .idle ∧ State.reset.hidden = Hidden.zero ∧
    irq State.reset = false

/-- 70_reset_and_hazards R300, 60_exceptions R266: reset from any state, with or without a coinciding transfer, discards the command in
flight and gives every register its reset value; `rst_n` returning to 1 changes no register. That reset is two moves, that the assertion carries
the lost transfer, and that a release is admitted from any state are the model's choice (log entry 6). -/
def Obligations.ResetFromAnyState : Prop :=
  (∀ (s : State) (lost : Option Transfer), s.schedule.head? = some (.resetAssert lost) →
    ∃ t, step s = .next t ∧ t.rstN = false ∧ t.seq = .idle ∧ t.hidden = Hidden.zero ∧ irq t = false ∧
      t.key = State.reset.key ∧ (∀ r : Reg, readReg r t = readReg r State.reset) ∧ t.schedule = s.schedule.tail) ∧
    ∀ s : State, s.schedule.head? = some .resetRelease →
      step s = .next { s with schedule := s.schedule.tail, rstN := true }

/-! ### The invariant and whole-machine rules -/

/-- The invariant holds after reset. -/
def Obligations.InvariantAtReset : Prop := State.reset.Inv

/-- Every step keeps the invariant: 10_state R26, R27, R29, R35 to R39, R42, 42_truncate_format R212, 70_reset_and_hazards R300. -/
def Obligations.EveryStepKeepsTheInvariant : Prop :=
  ∀ s t : State, s.Inv → step s = .next t → t.Inv

/-- 10_state R43: who writes which register, over every step that is not a reset. -/
def Obligations.OnlyNamedAgentsWriteRegisters : Prop :=
  ∀ s t : State, step s = .next t → ¬ resetMoves s →
    (t.key ≠ s.key → (busy s = false ∧ ∃ i w, hostWrites s (.key i) w) ∨ commits .zeroize s) ∧
    (t.digest ≠ s.digest →
      (busy s = false ∧ ∃ i w, hostWrites s (.digest i) w) ∨ commits .hmac s ∨ commits .totp s ∨ commits .zeroize s) ∧
    (t.ctrHi ≠ s.ctrHi ∨ t.ctrLo ≠ s.ctrLo → commits .tstep s ∨ commits .totp s ∨ commits .zeroize s) ∧
    (t.trunc ≠ s.trunc ∨ t.offset ≠ s.offset → commits .dtrunc s ∨ commits .totp s ∨ commits .zeroize s) ∧
    (t.code ≠ s.code ∨ t.codeBcd ≠ s.codeBcd ∨ t.codeAsc0 ≠ s.codeAsc0 ∨ t.codeAsc1 ≠ s.codeAsc1 →
      commits .fmt6 s ∨ commits .totp s ∨ commits .zeroize s) ∧
    (t.timeLo ≠ s.timeLo → busy s = false ∧ ∃ w, hostWrites s .timeLo w) ∧
    (t.timeHi ≠ s.timeHi → busy s = false ∧ ∃ w, hostWrites s .timeHi w) ∧
    (t.doneIe ≠ s.doneIe ∨ t.errIe ≠ s.errIe → ∃ w, hostWrites s .irqEn w) ∧
    (t.cmd ≠ s.cmd → busy s = false ∧ ∃ w, hostWrites s .cmd w)

/-- 10_state R29, 70_reset_and_hazards R314: KEYWR bits are set only by idle KEY writes and cleared only by ZEROIZE and reset, so a
loaded key stays loaded. -/
def Obligations.KeywrClearedOnlyByZeroizeOrReset : Prop :=
  ∀ (s t : State) (i : Fin 8), step s = .next t → ¬ resetMoves s →
    (s.keywr.getLsbD i.val = true → t.keywr.getLsbD i.val = false → commits .zeroize s) ∧
    (s.keywr.getLsbD i.val = false → t.keywr.getLsbD i.val = true →
      busy s = false ∧ ∃ w, hostWrites s (.key i) w)

/-- 10_state R28: a rejected host write sets BUSYWR, and nothing else does; BUSYWR is sticky: only a STATUS write with bit 3 set, or
reset, clears it. -/
def Obligations.BusywrIsSticky : Prop :=
  (∀ (s : State) (r : Reg) (w : Word), s.rstN = true → busy s = true → hostWrites s r w → r = .cmd ∨ guarded r = true →
    ∃ t, step s = .next t ∧ t.busywr = true) ∧
  ∀ s t : State, step s = .next t →
    (s.busywr = false → t.busywr = true → busy s = true ∧ ∃ r w, hostWrites s r w ∧ (r = .cmd ∨ guarded r = true)) ∧
    (s.busywr = true → t.busywr = false → resetMoves s ∨ ∃ w : Word, hostWrites s .status w ∧ w.getLsbD 3 = true)

/-! ### Time steps -/

/-- 40_timestep R136: adjacent times give adjacent counters exactly at a window boundary, else equal ones. -/
def Obligations.WindowBoundaries : Prop :=
  ∀ t : DWord, t.toNat < 2 ^ 64 - 1 →
    (timeStep (t + 1)).toNat - (timeStep t).toNat = (if (t.toNat + 1) % 30 = 0 then 1 else 0) ∧
      (timeStep t).toNat ≤ (timeStep (t + 1)).toNat

/-- 40_timestep R131, R137: TimeStep is exact floor division, never more than 0x0888888888888888, its value at 2^64 - 1, and monotone. -/
def Obligations.TimeStepExactAndMonotone : Prop :=
  (∀ t : DWord, (timeStep t).toNat = t.toNat / 30) ∧
    timeStep 0xFFFFFFFFFFFFFFFF = 0x0888888888888888 ∧ (∀ t : DWord, (timeStep t).toNat ≤ 0x0888888888888888) ∧
    ∀ t u : DWord, t.toNat ≤ u.toNat → (timeStep t).toNat ≤ (timeStep u).toNat

/-- 40_timestep R135: TSTEP, and TOTP under one key, from two times of one window write the same registers. -/
def Obligations.WindowDeterminism : Prop :=
  ∀ s u : State, (timeVal s).toNat / 30 = (timeVal u).toNat / 30 →
    (s.seq = .busy .tstep → u.seq = .busy .tstep →
      ∃ s' u', exec .tstep s = .next s' ∧ exec .tstep u = .next u' ∧ s'.ctrHi = u'.ctrHi ∧ s'.ctrLo = u'.ctrLo) ∧
    (s.seq = .busy .totp → u.seq = .busy .totp → s.key = u.key →
      ∃ s' u', exec .totp s = .next s' ∧ exec .totp u = .next u' ∧ s'.ctrHi = u'.ctrHi ∧ s'.ctrLo = u'.ctrLo ∧
        s'.digest = u'.digest ∧ s'.trunc = u'.trunc ∧ s'.offset = u'.offset ∧ s'.code = u'.code ∧
        s'.codeBcd = u'.codeBcd ∧ s'.codeAsc0 = u'.codeAsc0 ∧ s'.codeAsc1 = u'.codeAsc1)

/-! ### SHA-1 and HMAC -/

/-- 41_hmac_sha1 R157: the check values of the public standard. -/
def Obligations.Sha1CheckValues : Prop :=
  sha1 [0x61, 0x62, 0x63] = bytesOfWords [0xA9993E36, 0x4706816A, 0xBA3E2571, 0x7850C26C, 0x9CD0D89D] ∧
    sha1 [] = bytesOfWords [0xDA39A3EE, 0x5E6B4B0D, 0x3255BFEF, 0x95601890, 0xAFD80709]

/-- 41_hmac_sha1 R151: the padding is 0x80, the least number of zero bytes that fills whole blocks, and the bit length; it is split into
64-byte blocks. -/
def Obligations.PaddingFillsWholeBlocks : Prop :=
  ∀ m : List Byte,
    (∃ k, sha1Pad m = m ++ [0x80] ++ zeros k ++ beBytes 8 (8 * m.length) ∧ (m.length + 1 + k + 8) % 64 = 0 ∧
      ∀ j, (m.length + 1 + j + 8) % 64 = 0 → k ≤ j) ∧
    let blocks := sha1Blocks ((sha1Pad m).length / 64) (sha1Pad m)
    (sha1Pad m).length % 64 = 0 ∧ blocks.flatten = sha1Pad m ∧ ∀ b ∈ blocks, b.length = 64

/-- 41_hmac_sha1 R161: for any 32-byte key and counter, HMAC-SHA1 of the counter bytes is the four compressions of the fixed blocks, byte
by byte and word by word as the rule lists them, and is what the engine computes. -/
def Obligations.EngineHmacIsHmacSha1 : Prop :=
  ∀ (k : List Byte) (c : DWord), k.length = 32 →
    let ib1 := xorBytes k (List.replicate 32 0x36) ++ List.replicate 32 0x36
    let ib2 := be8 c ++ [0x80] ++ zeros 47 ++ beBytes 8 576
    let hi := sha1Compress (sha1Compress sha1Iv ib1) ib2
    let inner := bytesOfWords [hi.a, hi.b, hi.c, hi.d, hi.e]
    let ob1 := xorBytes k (List.replicate 32 0x5C) ++ List.replicate 32 0x5C
    let ob2 := inner ++ [0x80] ++ zeros 35 ++ beBytes 8 672
    let ho := sha1Compress (sha1Compress sha1Iv ob1) ob2
    hmacSha1 k (be8 c) = bytesOfWords [ho.a, ho.b, ho.c, ho.d, ho.e] ∧
      hmacEngine k c = hmacSha1 k (be8 c) ∧
      ib2 = bytesOfWords ([c.extractLsb' 32 32, c.extractLsb' 0 32, 0x80000000] ++ List.replicate 11 0 ++ [0, 0x00000240]) ∧
      ob2 = bytesOfWords ([hi.a, hi.b, hi.c, hi.d, hi.e, 0x80000000] ++ List.replicate 9 0 ++ [0x000002A0])

/-- 41_hmac_sha1 R162: zero-padding a short key to 32 bytes does not change the HMAC. -/
def Obligations.ZeroPaddedKeysAgree : Prop :=
  ∀ k m : List Byte, k.length ≤ 32 → hmacSha1 k m = hmacSha1 (k ++ zeros (32 - k.length)) m

/-! ### Truncation and format -/

/-- 42_truncate_format R203: for every digest, OFFSET <= 15, off + 3 <= 18 and TRUNC < 2^31; and byte 19 enters the value only through
the offset. -/
def Obligations.TruncationRangeLaws : Prop :=
  ∀ (d : List Byte), d.length = 20 →
    (dynTrunc d).off.toNat ≤ 15 ∧ (dynTrunc d).off.toNat + 3 ≤ 18 ∧ (dynTrunc d).val.toNat < 2 ^ 31 ∧
      ∀ b : Byte, b &&& 0x0F = d.getD 19 0 &&& 0x0F → dynTrunc (d.take 19 ++ [b]) = dynTrunc d

/-- 42_truncate_format R212: the format laws after every FMT6 or TOTP commit. -/
def Obligations.FormatLawsAfterCommit : Prop :=
  ∀ (op : Instr) (s t : State), op = .fmt6 ∨ op = .totp → s.seq = .busy op → exec op s = .next t → CodeFormatted t

/-! ### Command sequences, interleaving and isolation -/

/-- 43_control R237: from any idle state with KEYV = 1, TSTEP, HMAC, DTRUNC, FMT6, each waited to its commit, leave every data register
and STATUS as one TOTP, waited to its commit, does, however many polls see each command busy. WAIT written as its moves, with the
numbers of polls a parameter, is the model's choice (log entry 17). -/
def Obligations.TotpEqualsTheFourSteps : Prop :=
  ∀ (s : State) (polls : Instr → Nat), s.rstN = true → s.seq = .idle → keyv s = true →
    ∃ four one, RunsTo s (fourStepMoves polls) four ∧ RunsTo s (issueAndWait .totp (polls .totp)) one ∧
      dataRegs four = dataRegs one ∧ statusWord four = statusWord one ∧
      busy one = false ∧ one.done = true ∧ one.err = false

/-- 43_control R239: the entry-point sequence from any idle state ends, however many polls see it busy, with the six characters of the
code of (secret, at) in CODE_ASC0 and CODE_ASC1. WAIT written as its moves, with the number of polls a parameter, is the model's choice
(log entry 17). -/
def Obligations.EntryPointSequenceGivesTheCode : Prop :=
  ∀ (s : State) (k : Vector Word 8) (at' : DWord) (polls : Nat), s.rstN = true → s.seq = .idle →
    ∃ t, RunsTo s (generateMoves k at' polls) t ∧
      codeStr t = (format6 (dynTrunc (hmacSha1 (bytesOfWords k.toList) (be8 (timeStep at')))).val).chars ∧
      busy t = false ∧ t.done = true ∧ t.err = false ∧ t.resp = some (.read (statusWord t) false)

/-- 20_memory R74, 43_control R231, R232: whatever transfers the host makes between acceptance and commit, the commit leaves the same
data registers, CMD and KEYWR as one that comes at once. -/
def Obligations.ResultsDependOnlyOnAcceptance : Prop :=
  ∀ (s : State) (op : Instr) (ts : List Transfer), s.rstN = true → s.seq = .busy op →
    ∃ early late, RunsTo s [.engine] early ∧ RunsTo s (ts.map .host ++ [.engine]) late ∧
      dataRegs late = dataRegs early ∧ late.cmd = early.cmd ∧ late.keywr = early.keywr ∧
      late.seq = .idle ∧ late.done = true ∧ late.hidden = Hidden.zero

/-- 70_reset_and_hazards R320 as the model has it (log entry 2): a command in flight commits within the moves scheduled, unless reset
comes first. -/
def Obligations.CommandInFlightCommits : Prop :=
  ∀ (s : State) (op : Instr), s.rstN = true → s.seq = .busy op → (∀ lost, .resetAssert lost ∉ s.schedule) →
    ∃ k ≤ s.schedule.length, ∃ u t, Sys2Proof.core.run k s = .next u ∧ commits op u ∧ step u = .next t ∧
      t.seq = .idle ∧ t.done = true

/-- 43_control R242: two machines that differ only in the key and what was derived from it are equal once ZEROIZE commits, and stay so
whatever is scheduled after; KEY reads 0 in any case. -/
def Obligations.ZeroizeScrubsTheKey : Prop :=
  (∀ (s u : State) (n : Nat), commits .zeroize s →
    u = { s with
      key := u.key, keywr := u.keywr, ctrHi := u.ctrHi, ctrLo := u.ctrLo, digest := u.digest, trunc := u.trunc
      offset := u.offset, code := u.code, codeBcd := u.codeBcd, codeAsc0 := u.codeAsc0, codeAsc1 := u.codeAsc1
      hidden := u.hidden } →
    Sys2Proof.core.run (n + 1) s = Sys2Proof.core.run (n + 1) u) ∧
  ∀ (s : State) (i : Fin 8), readReg (.key i) s = 0

/-- 60_exceptions R280, 41_hmac_sha1 R171: but for the commit of HMAC or TOTP, a step carries nothing from the key to any other part of
the state, the bus response among them. -/
def Obligations.KeyReachesNothingButHmac : Prop :=
  ∀ (s : State) (k : Vector Word 8), ¬ commits .hmac s → ¬ commits .totp s →
    (∀ t, step s = .next t → ∃ k', step { s with key := k } = .next { t with key := k' }) ∧
      (∀ r, step s = .refused r → step { s with key := k } = .refused r)

/-- 10_state R42: no register depends on the hidden working state; only the hidden state itself may differ after a step. -/
def Obligations.HiddenStateReachesNoRegister : Prop :=
  ∀ (s : State) (h : Hidden),
    (∀ t, step s = .next t → ∃ h', step { s with hidden := h } = .next { t with hidden := h' }) ∧
      (∀ r, step s = .refused r → step { s with hidden := h } = .refused r)
end

