-- ==== Sys2Proof/Laws/State.lean ====
section
/-! SUPPORT. What each named update of the state does to each field: one lemma per field, so that no later proof unfolds a record update. -/

namespace Sys2Proof.Machine

@[simp] theorem latchCommand_cmd (w : Word) (s : State) : (latchCommand w s).cmd = w := rfl
@[simp] theorem latchCommand_done (w : Word) (s : State) : (latchCommand w s).done = false := rfl
@[simp] theorem latchCommand_err (w : Word) (s : State) : (latchCommand w s).err = false := rfl
@[simp] theorem latchCommand_busywr (w : Word) (s : State) : (latchCommand w s).busywr = s.busywr := rfl
@[simp] theorem latchCommand_errcode (w : Word) (s : State) : (latchCommand w s).errcode = .noError := rfl
@[simp] theorem latchCommand_keywr (w : Word) (s : State) : (latchCommand w s).keywr = s.keywr := rfl
@[simp] theorem latchCommand_doneIe (w : Word) (s : State) : (latchCommand w s).doneIe = s.doneIe := rfl
@[simp] theorem latchCommand_errIe (w : Word) (s : State) : (latchCommand w s).errIe = s.errIe := rfl
@[simp] theorem latchCommand_timeLo (w : Word) (s : State) : (latchCommand w s).timeLo = s.timeLo := rfl
@[simp] theorem latchCommand_timeHi (w : Word) (s : State) : (latchCommand w s).timeHi = s.timeHi := rfl
@[simp] theorem latchCommand_ctrLo (w : Word) (s : State) : (latchCommand w s).ctrLo = s.ctrLo := rfl
@[simp] theorem latchCommand_ctrHi (w : Word) (s : State) : (latchCommand w s).ctrHi = s.ctrHi := rfl
@[simp] theorem latchCommand_key (w : Word) (s : State) : (latchCommand w s).key = s.key := rfl
@[simp] theorem latchCommand_digest (w : Word) (s : State) : (latchCommand w s).digest = s.digest := rfl
@[simp] theorem latchCommand_trunc (w : Word) (s : State) : (latchCommand w s).trunc = s.trunc := rfl
@[simp] theorem latchCommand_offset (w : Word) (s : State) : (latchCommand w s).offset = s.offset := rfl
@[simp] theorem latchCommand_code (w : Word) (s : State) : (latchCommand w s).code = s.code := rfl
@[simp] theorem latchCommand_codeBcd (w : Word) (s : State) : (latchCommand w s).codeBcd = s.codeBcd := rfl
@[simp] theorem latchCommand_codeAsc0 (w : Word) (s : State) : (latchCommand w s).codeAsc0 = s.codeAsc0 := rfl
@[simp] theorem latchCommand_codeAsc1 (w : Word) (s : State) : (latchCommand w s).codeAsc1 = s.codeAsc1 := rfl
@[simp] theorem latchCommand_seq (w : Word) (s : State) : (latchCommand w s).seq = s.seq := rfl
@[simp] theorem latchCommand_hidden (w : Word) (s : State) : (latchCommand w s).hidden = s.hidden := rfl
@[simp] theorem latchCommand_rstN (w : Word) (s : State) : (latchCommand w s).rstN = s.rstN := rfl
@[simp] theorem latchCommand_resp (w : Word) (s : State) : (latchCommand w s).resp = s.resp := rfl
@[simp] theorem latchCommand_schedule (w : Word) (s : State) : (latchCommand w s).schedule = s.schedule := rfl
@[simp] theorem latchCommand_draws (w : Word) (s : State) : (latchCommand w s).draws = s.draws := rfl

@[simp] theorem cmdError_cmd (c : ErrCode) (s : State) : (cmdError c s).cmd = s.cmd := rfl
@[simp] theorem cmdError_done (c : ErrCode) (s : State) : (cmdError c s).done = true := rfl
@[simp] theorem cmdError_err (c : ErrCode) (s : State) : (cmdError c s).err = true := rfl
@[simp] theorem cmdError_busywr (c : ErrCode) (s : State) : (cmdError c s).busywr = s.busywr := rfl
@[simp] theorem cmdError_errcode (c : ErrCode) (s : State) : (cmdError c s).errcode = c := rfl
@[simp] theorem cmdError_keywr (c : ErrCode) (s : State) : (cmdError c s).keywr = s.keywr := rfl
@[simp] theorem cmdError_doneIe (c : ErrCode) (s : State) : (cmdError c s).doneIe = s.doneIe := rfl
@[simp] theorem cmdError_errIe (c : ErrCode) (s : State) : (cmdError c s).errIe = s.errIe := rfl
@[simp] theorem cmdError_timeLo (c : ErrCode) (s : State) : (cmdError c s).timeLo = s.timeLo := rfl
@[simp] theorem cmdError_timeHi (c : ErrCode) (s : State) : (cmdError c s).timeHi = s.timeHi := rfl
@[simp] theorem cmdError_ctrLo (c : ErrCode) (s : State) : (cmdError c s).ctrLo = s.ctrLo := rfl
@[simp] theorem cmdError_ctrHi (c : ErrCode) (s : State) : (cmdError c s).ctrHi = s.ctrHi := rfl
@[simp] theorem cmdError_key (c : ErrCode) (s : State) : (cmdError c s).key = s.key := rfl
@[simp] theorem cmdError_digest (c : ErrCode) (s : State) : (cmdError c s).digest = s.digest := rfl
@[simp] theorem cmdError_trunc (c : ErrCode) (s : State) : (cmdError c s).trunc = s.trunc := rfl
@[simp] theorem cmdError_offset (c : ErrCode) (s : State) : (cmdError c s).offset = s.offset := rfl
@[simp] theorem cmdError_code (c : ErrCode) (s : State) : (cmdError c s).code = s.code := rfl
@[simp] theorem cmdError_codeBcd (c : ErrCode) (s : State) : (cmdError c s).codeBcd = s.codeBcd := rfl
@[simp] theorem cmdError_codeAsc0 (c : ErrCode) (s : State) : (cmdError c s).codeAsc0 = s.codeAsc0 := rfl
@[simp] theorem cmdError_codeAsc1 (c : ErrCode) (s : State) : (cmdError c s).codeAsc1 = s.codeAsc1 := rfl
@[simp] theorem cmdError_seq (c : ErrCode) (s : State) : (cmdError c s).seq = s.seq := rfl
@[simp] theorem cmdError_hidden (c : ErrCode) (s : State) : (cmdError c s).hidden = s.hidden := rfl
@[simp] theorem cmdError_rstN (c : ErrCode) (s : State) : (cmdError c s).rstN = s.rstN := rfl
@[simp] theorem cmdError_resp (c : ErrCode) (s : State) : (cmdError c s).resp = s.resp := rfl
@[simp] theorem cmdError_schedule (c : ErrCode) (s : State) : (cmdError c s).schedule = s.schedule := rfl
@[simp] theorem cmdError_draws (c : ErrCode) (s : State) : (cmdError c s).draws = s.draws := rfl

@[simp] theorem enterBusy_cmd (op : Instr) (s : State) : (enterBusy op s).cmd = s.cmd := rfl
@[simp] theorem enterBusy_done (op : Instr) (s : State) : (enterBusy op s).done = s.done := rfl
@[simp] theorem enterBusy_err (op : Instr) (s : State) : (enterBusy op s).err = s.err := rfl
@[simp] theorem enterBusy_busywr (op : Instr) (s : State) : (enterBusy op s).busywr = s.busywr := rfl
@[simp] theorem enterBusy_errcode (op : Instr) (s : State) : (enterBusy op s).errcode = s.errcode := rfl
@[simp] theorem enterBusy_keywr (op : Instr) (s : State) : (enterBusy op s).keywr = s.keywr := rfl
@[simp] theorem enterBusy_doneIe (op : Instr) (s : State) : (enterBusy op s).doneIe = s.doneIe := rfl
@[simp] theorem enterBusy_errIe (op : Instr) (s : State) : (enterBusy op s).errIe = s.errIe := rfl
@[simp] theorem enterBusy_timeLo (op : Instr) (s : State) : (enterBusy op s).timeLo = s.timeLo := rfl
@[simp] theorem enterBusy_timeHi (op : Instr) (s : State) : (enterBusy op s).timeHi = s.timeHi := rfl
@[simp] theorem enterBusy_ctrLo (op : Instr) (s : State) : (enterBusy op s).ctrLo = s.ctrLo := rfl
@[simp] theorem enterBusy_ctrHi (op : Instr) (s : State) : (enterBusy op s).ctrHi = s.ctrHi := rfl
@[simp] theorem enterBusy_key (op : Instr) (s : State) : (enterBusy op s).key = s.key := rfl
@[simp] theorem enterBusy_digest (op : Instr) (s : State) : (enterBusy op s).digest = s.digest := rfl
@[simp] theorem enterBusy_trunc (op : Instr) (s : State) : (enterBusy op s).trunc = s.trunc := rfl
@[simp] theorem enterBusy_offset (op : Instr) (s : State) : (enterBusy op s).offset = s.offset := rfl
@[simp] theorem enterBusy_code (op : Instr) (s : State) : (enterBusy op s).code = s.code := rfl
@[simp] theorem enterBusy_codeBcd (op : Instr) (s : State) : (enterBusy op s).codeBcd = s.codeBcd := rfl
@[simp] theorem enterBusy_codeAsc0 (op : Instr) (s : State) : (enterBusy op s).codeAsc0 = s.codeAsc0 := rfl
@[simp] theorem enterBusy_codeAsc1 (op : Instr) (s : State) : (enterBusy op s).codeAsc1 = s.codeAsc1 := rfl
@[simp] theorem enterBusy_seq (op : Instr) (s : State) : (enterBusy op s).seq = .busy op := rfl
@[simp] theorem enterBusy_hidden (op : Instr) (s : State) : (enterBusy op s).hidden = hiddenInFlight s.draws := rfl
@[simp] theorem enterBusy_rstN (op : Instr) (s : State) : (enterBusy op s).rstN = s.rstN := rfl
@[simp] theorem enterBusy_resp (op : Instr) (s : State) : (enterBusy op s).resp = s.resp := rfl
@[simp] theorem enterBusy_schedule (op : Instr) (s : State) : (enterBusy op s).schedule = s.schedule := rfl
@[simp] theorem enterBusy_draws (op : Instr) (s : State) : (enterBusy op s).draws = s.draws + 1 := rfl

@[simp] theorem rejectBusy_cmd (s : State) : (rejectBusy s).cmd = s.cmd := rfl
@[simp] theorem rejectBusy_done (s : State) : (rejectBusy s).done = s.done := rfl
@[simp] theorem rejectBusy_err (s : State) : (rejectBusy s).err = s.err := rfl
@[simp] theorem rejectBusy_busywr (s : State) : (rejectBusy s).busywr = true := rfl
@[simp] theorem rejectBusy_errcode (s : State) : (rejectBusy s).errcode = s.errcode := rfl
@[simp] theorem rejectBusy_keywr (s : State) : (rejectBusy s).keywr = s.keywr := rfl
@[simp] theorem rejectBusy_doneIe (s : State) : (rejectBusy s).doneIe = s.doneIe := rfl
@[simp] theorem rejectBusy_errIe (s : State) : (rejectBusy s).errIe = s.errIe := rfl
@[simp] theorem rejectBusy_timeLo (s : State) : (rejectBusy s).timeLo = s.timeLo := rfl
@[simp] theorem rejectBusy_timeHi (s : State) : (rejectBusy s).timeHi = s.timeHi := rfl
@[simp] theorem rejectBusy_ctrLo (s : State) : (rejectBusy s).ctrLo = s.ctrLo := rfl
@[simp] theorem rejectBusy_ctrHi (s : State) : (rejectBusy s).ctrHi = s.ctrHi := rfl
@[simp] theorem rejectBusy_key (s : State) : (rejectBusy s).key = s.key := rfl
@[simp] theorem rejectBusy_digest (s : State) : (rejectBusy s).digest = s.digest := rfl
@[simp] theorem rejectBusy_trunc (s : State) : (rejectBusy s).trunc = s.trunc := rfl
@[simp] theorem rejectBusy_offset (s : State) : (rejectBusy s).offset = s.offset := rfl
@[simp] theorem rejectBusy_code (s : State) : (rejectBusy s).code = s.code := rfl
@[simp] theorem rejectBusy_codeBcd (s : State) : (rejectBusy s).codeBcd = s.codeBcd := rfl
@[simp] theorem rejectBusy_codeAsc0 (s : State) : (rejectBusy s).codeAsc0 = s.codeAsc0 := rfl
@[simp] theorem rejectBusy_codeAsc1 (s : State) : (rejectBusy s).codeAsc1 = s.codeAsc1 := rfl
@[simp] theorem rejectBusy_seq (s : State) : (rejectBusy s).seq = s.seq := rfl
@[simp] theorem rejectBusy_hidden (s : State) : (rejectBusy s).hidden = s.hidden := rfl
@[simp] theorem rejectBusy_rstN (s : State) : (rejectBusy s).rstN = s.rstN := rfl
@[simp] theorem rejectBusy_resp (s : State) : (rejectBusy s).resp = s.resp := rfl
@[simp] theorem rejectBusy_schedule (s : State) : (rejectBusy s).schedule = s.schedule := rfl
@[simp] theorem rejectBusy_draws (s : State) : (rejectBusy s).draws = s.draws := rfl

@[simp] theorem finish_cmd (s : State) : (finish s).cmd = s.cmd := rfl
@[simp] theorem finish_done (s : State) : (finish s).done = true := rfl
@[simp] theorem finish_err (s : State) : (finish s).err = s.err := rfl
@[simp] theorem finish_busywr (s : State) : (finish s).busywr = s.busywr := rfl
@[simp] theorem finish_errcode (s : State) : (finish s).errcode = s.errcode := rfl
@[simp] theorem finish_keywr (s : State) : (finish s).keywr = s.keywr := rfl
@[simp] theorem finish_doneIe (s : State) : (finish s).doneIe = s.doneIe := rfl
@[simp] theorem finish_errIe (s : State) : (finish s).errIe = s.errIe := rfl
@[simp] theorem finish_timeLo (s : State) : (finish s).timeLo = s.timeLo := rfl
@[simp] theorem finish_timeHi (s : State) : (finish s).timeHi = s.timeHi := rfl
@[simp] theorem finish_ctrLo (s : State) : (finish s).ctrLo = s.ctrLo := rfl
@[simp] theorem finish_ctrHi (s : State) : (finish s).ctrHi = s.ctrHi := rfl
@[simp] theorem finish_key (s : State) : (finish s).key = s.key := rfl
@[simp] theorem finish_digest (s : State) : (finish s).digest = s.digest := rfl
@[simp] theorem finish_trunc (s : State) : (finish s).trunc = s.trunc := rfl
@[simp] theorem finish_offset (s : State) : (finish s).offset = s.offset := rfl
@[simp] theorem finish_code (s : State) : (finish s).code = s.code := rfl
@[simp] theorem finish_codeBcd (s : State) : (finish s).codeBcd = s.codeBcd := rfl
@[simp] theorem finish_codeAsc0 (s : State) : (finish s).codeAsc0 = s.codeAsc0 := rfl
@[simp] theorem finish_codeAsc1 (s : State) : (finish s).codeAsc1 = s.codeAsc1 := rfl
@[simp] theorem finish_seq (s : State) : (finish s).seq = .idle := rfl
@[simp] theorem finish_hidden (s : State) : (finish s).hidden = Hidden.zero := rfl
@[simp] theorem finish_rstN (s : State) : (finish s).rstN = s.rstN := rfl
@[simp] theorem finish_resp (s : State) : (finish s).resp = s.resp := rfl
@[simp] theorem finish_schedule (s : State) : (finish s).schedule = s.schedule := rfl
@[simp] theorem finish_draws (s : State) : (finish s).draws = s.draws := rfl

@[simp] theorem respond_cmd (r : Response) (s : State) : (respond r s).cmd = s.cmd := rfl
@[simp] theorem respond_done (r : Response) (s : State) : (respond r s).done = s.done := rfl
@[simp] theorem respond_err (r : Response) (s : State) : (respond r s).err = s.err := rfl
@[simp] theorem respond_busywr (r : Response) (s : State) : (respond r s).busywr = s.busywr := rfl
@[simp] theorem respond_errcode (r : Response) (s : State) : (respond r s).errcode = s.errcode := rfl
@[simp] theorem respond_keywr (r : Response) (s : State) : (respond r s).keywr = s.keywr := rfl
@[simp] theorem respond_doneIe (r : Response) (s : State) : (respond r s).doneIe = s.doneIe := rfl
@[simp] theorem respond_errIe (r : Response) (s : State) : (respond r s).errIe = s.errIe := rfl
@[simp] theorem respond_timeLo (r : Response) (s : State) : (respond r s).timeLo = s.timeLo := rfl
@[simp] theorem respond_timeHi (r : Response) (s : State) : (respond r s).timeHi = s.timeHi := rfl
@[simp] theorem respond_ctrLo (r : Response) (s : State) : (respond r s).ctrLo = s.ctrLo := rfl
@[simp] theorem respond_ctrHi (r : Response) (s : State) : (respond r s).ctrHi = s.ctrHi := rfl
@[simp] theorem respond_key (r : Response) (s : State) : (respond r s).key = s.key := rfl
@[simp] theorem respond_digest (r : Response) (s : State) : (respond r s).digest = s.digest := rfl
@[simp] theorem respond_trunc (r : Response) (s : State) : (respond r s).trunc = s.trunc := rfl
@[simp] theorem respond_offset (r : Response) (s : State) : (respond r s).offset = s.offset := rfl
@[simp] theorem respond_code (r : Response) (s : State) : (respond r s).code = s.code := rfl
@[simp] theorem respond_codeBcd (r : Response) (s : State) : (respond r s).codeBcd = s.codeBcd := rfl
@[simp] theorem respond_codeAsc0 (r : Response) (s : State) : (respond r s).codeAsc0 = s.codeAsc0 := rfl
@[simp] theorem respond_codeAsc1 (r : Response) (s : State) : (respond r s).codeAsc1 = s.codeAsc1 := rfl
@[simp] theorem respond_seq (r : Response) (s : State) : (respond r s).seq = s.seq := rfl
@[simp] theorem respond_hidden (r : Response) (s : State) : (respond r s).hidden = s.hidden := rfl
@[simp] theorem respond_rstN (r : Response) (s : State) : (respond r s).rstN = s.rstN := rfl
@[simp] theorem respond_resp (r : Response) (s : State) : (respond r s).resp = some r := rfl
@[simp] theorem respond_schedule (r : Response) (s : State) : (respond r s).schedule = s.schedule := rfl
@[simp] theorem respond_draws (r : Response) (s : State) : (respond r s).draws = s.draws := rfl

@[simp] theorem statusW1c_cmd (w : Word) (s : State) : (statusW1c w s).cmd = s.cmd := rfl
@[simp] theorem statusW1c_done (w : Word) (s : State) : (statusW1c w s).done = (s.done && !w.getLsbD 1) := rfl
@[simp] theorem statusW1c_err (w : Word) (s : State) : (statusW1c w s).err = (s.err && !w.getLsbD 2) := rfl
@[simp] theorem statusW1c_busywr (w : Word) (s : State) : (statusW1c w s).busywr = (s.busywr && !w.getLsbD 3) := rfl
@[simp] theorem statusW1c_errcode (w : Word) (s : State) : (statusW1c w s).errcode = if w.getLsbD 2 then .noError else s.errcode := rfl
@[simp] theorem statusW1c_keywr (w : Word) (s : State) : (statusW1c w s).keywr = s.keywr := rfl
@[simp] theorem statusW1c_doneIe (w : Word) (s : State) : (statusW1c w s).doneIe = s.doneIe := rfl
@[simp] theorem statusW1c_errIe (w : Word) (s : State) : (statusW1c w s).errIe = s.errIe := rfl
@[simp] theorem statusW1c_timeLo (w : Word) (s : State) : (statusW1c w s).timeLo = s.timeLo := rfl
@[simp] theorem statusW1c_timeHi (w : Word) (s : State) : (statusW1c w s).timeHi = s.timeHi := rfl
@[simp] theorem statusW1c_ctrLo (w : Word) (s : State) : (statusW1c w s).ctrLo = s.ctrLo := rfl
@[simp] theorem statusW1c_ctrHi (w : Word) (s : State) : (statusW1c w s).ctrHi = s.ctrHi := rfl
@[simp] theorem statusW1c_key (w : Word) (s : State) : (statusW1c w s).key = s.key := rfl
@[simp] theorem statusW1c_digest (w : Word) (s : State) : (statusW1c w s).digest = s.digest := rfl
@[simp] theorem statusW1c_trunc (w : Word) (s : State) : (statusW1c w s).trunc = s.trunc := rfl
@[simp] theorem statusW1c_offset (w : Word) (s : State) : (statusW1c w s).offset = s.offset := rfl
@[simp] theorem statusW1c_code (w : Word) (s : State) : (statusW1c w s).code = s.code := rfl
@[simp] theorem statusW1c_codeBcd (w : Word) (s : State) : (statusW1c w s).codeBcd = s.codeBcd := rfl
@[simp] theorem statusW1c_codeAsc0 (w : Word) (s : State) : (statusW1c w s).codeAsc0 = s.codeAsc0 := rfl
@[simp] theorem statusW1c_codeAsc1 (w : Word) (s : State) : (statusW1c w s).codeAsc1 = s.codeAsc1 := rfl
@[simp] theorem statusW1c_seq (w : Word) (s : State) : (statusW1c w s).seq = s.seq := rfl
@[simp] theorem statusW1c_hidden (w : Word) (s : State) : (statusW1c w s).hidden = s.hidden := rfl
@[simp] theorem statusW1c_rstN (w : Word) (s : State) : (statusW1c w s).rstN = s.rstN := rfl
@[simp] theorem statusW1c_resp (w : Word) (s : State) : (statusW1c w s).resp = s.resp := rfl
@[simp] theorem statusW1c_schedule (w : Word) (s : State) : (statusW1c w s).schedule = s.schedule := rfl
@[simp] theorem statusW1c_draws (w : Word) (s : State) : (statusW1c w s).draws = s.draws := rfl

@[simp] theorem writeIrqEn_cmd (w : Word) (s : State) : (writeIrqEn w s).cmd = s.cmd := rfl
@[simp] theorem writeIrqEn_done (w : Word) (s : State) : (writeIrqEn w s).done = s.done := rfl
@[simp] theorem writeIrqEn_err (w : Word) (s : State) : (writeIrqEn w s).err = s.err := rfl
@[simp] theorem writeIrqEn_busywr (w : Word) (s : State) : (writeIrqEn w s).busywr = s.busywr := rfl
@[simp] theorem writeIrqEn_errcode (w : Word) (s : State) : (writeIrqEn w s).errcode = s.errcode := rfl
@[simp] theorem writeIrqEn_keywr (w : Word) (s : State) : (writeIrqEn w s).keywr = s.keywr := rfl
@[simp] theorem writeIrqEn_doneIe (w : Word) (s : State) : (writeIrqEn w s).doneIe = w.getLsbD 0 := rfl
@[simp] theorem writeIrqEn_errIe (w : Word) (s : State) : (writeIrqEn w s).errIe = w.getLsbD 1 := rfl
@[simp] theorem writeIrqEn_timeLo (w : Word) (s : State) : (writeIrqEn w s).timeLo = s.timeLo := rfl
@[simp] theorem writeIrqEn_timeHi (w : Word) (s : State) : (writeIrqEn w s).timeHi = s.timeHi := rfl
@[simp] theorem writeIrqEn_ctrLo (w : Word) (s : State) : (writeIrqEn w s).ctrLo = s.ctrLo := rfl
@[simp] theorem writeIrqEn_ctrHi (w : Word) (s : State) : (writeIrqEn w s).ctrHi = s.ctrHi := rfl
@[simp] theorem writeIrqEn_key (w : Word) (s : State) : (writeIrqEn w s).key = s.key := rfl
@[simp] theorem writeIrqEn_digest (w : Word) (s : State) : (writeIrqEn w s).digest = s.digest := rfl
@[simp] theorem writeIrqEn_trunc (w : Word) (s : State) : (writeIrqEn w s).trunc = s.trunc := rfl
@[simp] theorem writeIrqEn_offset (w : Word) (s : State) : (writeIrqEn w s).offset = s.offset := rfl
@[simp] theorem writeIrqEn_code (w : Word) (s : State) : (writeIrqEn w s).code = s.code := rfl
@[simp] theorem writeIrqEn_codeBcd (w : Word) (s : State) : (writeIrqEn w s).codeBcd = s.codeBcd := rfl
@[simp] theorem writeIrqEn_codeAsc0 (w : Word) (s : State) : (writeIrqEn w s).codeAsc0 = s.codeAsc0 := rfl
@[simp] theorem writeIrqEn_codeAsc1 (w : Word) (s : State) : (writeIrqEn w s).codeAsc1 = s.codeAsc1 := rfl
@[simp] theorem writeIrqEn_seq (w : Word) (s : State) : (writeIrqEn w s).seq = s.seq := rfl
@[simp] theorem writeIrqEn_hidden (w : Word) (s : State) : (writeIrqEn w s).hidden = s.hidden := rfl
@[simp] theorem writeIrqEn_rstN (w : Word) (s : State) : (writeIrqEn w s).rstN = s.rstN := rfl
@[simp] theorem writeIrqEn_resp (w : Word) (s : State) : (writeIrqEn w s).resp = s.resp := rfl
@[simp] theorem writeIrqEn_schedule (w : Word) (s : State) : (writeIrqEn w s).schedule = s.schedule := rfl
@[simp] theorem writeIrqEn_draws (w : Word) (s : State) : (writeIrqEn w s).draws = s.draws := rfl

@[simp] theorem writeCtr_cmd (c : DWord) (s : State) : (writeCtr c s).cmd = s.cmd := rfl
@[simp] theorem writeCtr_done (c : DWord) (s : State) : (writeCtr c s).done = s.done := rfl
@[simp] theorem writeCtr_err (c : DWord) (s : State) : (writeCtr c s).err = s.err := rfl
@[simp] theorem writeCtr_busywr (c : DWord) (s : State) : (writeCtr c s).busywr = s.busywr := rfl
@[simp] theorem writeCtr_errcode (c : DWord) (s : State) : (writeCtr c s).errcode = s.errcode := rfl
@[simp] theorem writeCtr_keywr (c : DWord) (s : State) : (writeCtr c s).keywr = s.keywr := rfl
@[simp] theorem writeCtr_doneIe (c : DWord) (s : State) : (writeCtr c s).doneIe = s.doneIe := rfl
@[simp] theorem writeCtr_errIe (c : DWord) (s : State) : (writeCtr c s).errIe = s.errIe := rfl
@[simp] theorem writeCtr_timeLo (c : DWord) (s : State) : (writeCtr c s).timeLo = s.timeLo := rfl
@[simp] theorem writeCtr_timeHi (c : DWord) (s : State) : (writeCtr c s).timeHi = s.timeHi := rfl
@[simp] theorem writeCtr_ctrLo (c : DWord) (s : State) : (writeCtr c s).ctrLo = c.extractLsb' 0 32 := rfl
@[simp] theorem writeCtr_ctrHi (c : DWord) (s : State) : (writeCtr c s).ctrHi = c.extractLsb' 32 32 := rfl
@[simp] theorem writeCtr_key (c : DWord) (s : State) : (writeCtr c s).key = s.key := rfl
@[simp] theorem writeCtr_digest (c : DWord) (s : State) : (writeCtr c s).digest = s.digest := rfl
@[simp] theorem writeCtr_trunc (c : DWord) (s : State) : (writeCtr c s).trunc = s.trunc := rfl
@[simp] theorem writeCtr_offset (c : DWord) (s : State) : (writeCtr c s).offset = s.offset := rfl
@[simp] theorem writeCtr_code (c : DWord) (s : State) : (writeCtr c s).code = s.code := rfl
@[simp] theorem writeCtr_codeBcd (c : DWord) (s : State) : (writeCtr c s).codeBcd = s.codeBcd := rfl
@[simp] theorem writeCtr_codeAsc0 (c : DWord) (s : State) : (writeCtr c s).codeAsc0 = s.codeAsc0 := rfl
@[simp] theorem writeCtr_codeAsc1 (c : DWord) (s : State) : (writeCtr c s).codeAsc1 = s.codeAsc1 := rfl
@[simp] theorem writeCtr_seq (c : DWord) (s : State) : (writeCtr c s).seq = s.seq := rfl
@[simp] theorem writeCtr_hidden (c : DWord) (s : State) : (writeCtr c s).hidden = s.hidden := rfl
@[simp] theorem writeCtr_rstN (c : DWord) (s : State) : (writeCtr c s).rstN = s.rstN := rfl
@[simp] theorem writeCtr_resp (c : DWord) (s : State) : (writeCtr c s).resp = s.resp := rfl
@[simp] theorem writeCtr_schedule (c : DWord) (s : State) : (writeCtr c s).schedule = s.schedule := rfl
@[simp] theorem writeCtr_draws (c : DWord) (s : State) : (writeCtr c s).draws = s.draws := rfl

@[simp] theorem writeDigest_cmd (d : List Byte) (s : State) : (writeDigest d s).cmd = s.cmd := rfl
@[simp] theorem writeDigest_done (d : List Byte) (s : State) : (writeDigest d s).done = s.done := rfl
@[simp] theorem writeDigest_err (d : List Byte) (s : State) : (writeDigest d s).err = s.err := rfl
@[simp] theorem writeDigest_busywr (d : List Byte) (s : State) : (writeDigest d s).busywr = s.busywr := rfl
@[simp] theorem writeDigest_errcode (d : List Byte) (s : State) : (writeDigest d s).errcode = s.errcode := rfl
@[simp] theorem writeDigest_keywr (d : List Byte) (s : State) : (writeDigest d s).keywr = s.keywr := rfl
@[simp] theorem writeDigest_doneIe (d : List Byte) (s : State) : (writeDigest d s).doneIe = s.doneIe := rfl
@[simp] theorem writeDigest_errIe (d : List Byte) (s : State) : (writeDigest d s).errIe = s.errIe := rfl
@[simp] theorem writeDigest_timeLo (d : List Byte) (s : State) : (writeDigest d s).timeLo = s.timeLo := rfl
@[simp] theorem writeDigest_timeHi (d : List Byte) (s : State) : (writeDigest d s).timeHi = s.timeHi := rfl
@[simp] theorem writeDigest_ctrLo (d : List Byte) (s : State) : (writeDigest d s).ctrLo = s.ctrLo := rfl
@[simp] theorem writeDigest_ctrHi (d : List Byte) (s : State) : (writeDigest d s).ctrHi = s.ctrHi := rfl
@[simp] theorem writeDigest_key (d : List Byte) (s : State) : (writeDigest d s).key = s.key := rfl
@[simp] theorem writeDigest_digest (d : List Byte) (s : State) : (writeDigest d s).digest = digestWords d := rfl
@[simp] theorem writeDigest_trunc (d : List Byte) (s : State) : (writeDigest d s).trunc = s.trunc := rfl
@[simp] theorem writeDigest_offset (d : List Byte) (s : State) : (writeDigest d s).offset = s.offset := rfl
@[simp] theorem writeDigest_code (d : List Byte) (s : State) : (writeDigest d s).code = s.code := rfl
@[simp] theorem writeDigest_codeBcd (d : List Byte) (s : State) : (writeDigest d s).codeBcd = s.codeBcd := rfl
@[simp] theorem writeDigest_codeAsc0 (d : List Byte) (s : State) : (writeDigest d s).codeAsc0 = s.codeAsc0 := rfl
@[simp] theorem writeDigest_codeAsc1 (d : List Byte) (s : State) : (writeDigest d s).codeAsc1 = s.codeAsc1 := rfl
@[simp] theorem writeDigest_seq (d : List Byte) (s : State) : (writeDigest d s).seq = s.seq := rfl
@[simp] theorem writeDigest_hidden (d : List Byte) (s : State) : (writeDigest d s).hidden = s.hidden := rfl
@[simp] theorem writeDigest_rstN (d : List Byte) (s : State) : (writeDigest d s).rstN = s.rstN := rfl
@[simp] theorem writeDigest_resp (d : List Byte) (s : State) : (writeDigest d s).resp = s.resp := rfl
@[simp] theorem writeDigest_schedule (d : List Byte) (s : State) : (writeDigest d s).schedule = s.schedule := rfl
@[simp] theorem writeDigest_draws (d : List Byte) (s : State) : (writeDigest d s).draws = s.draws := rfl

@[simp] theorem writeTrunc_cmd (r : Truncated) (s : State) : (writeTrunc r s).cmd = s.cmd := rfl
@[simp] theorem writeTrunc_done (r : Truncated) (s : State) : (writeTrunc r s).done = s.done := rfl
@[simp] theorem writeTrunc_err (r : Truncated) (s : State) : (writeTrunc r s).err = s.err := rfl
@[simp] theorem writeTrunc_busywr (r : Truncated) (s : State) : (writeTrunc r s).busywr = s.busywr := rfl
@[simp] theorem writeTrunc_errcode (r : Truncated) (s : State) : (writeTrunc r s).errcode = s.errcode := rfl
@[simp] theorem writeTrunc_keywr (r : Truncated) (s : State) : (writeTrunc r s).keywr = s.keywr := rfl
@[simp] theorem writeTrunc_doneIe (r : Truncated) (s : State) : (writeTrunc r s).doneIe = s.doneIe := rfl
@[simp] theorem writeTrunc_errIe (r : Truncated) (s : State) : (writeTrunc r s).errIe = s.errIe := rfl
@[simp] theorem writeTrunc_timeLo (r : Truncated) (s : State) : (writeTrunc r s).timeLo = s.timeLo := rfl
@[simp] theorem writeTrunc_timeHi (r : Truncated) (s : State) : (writeTrunc r s).timeHi = s.timeHi := rfl
@[simp] theorem writeTrunc_ctrLo (r : Truncated) (s : State) : (writeTrunc r s).ctrLo = s.ctrLo := rfl
@[simp] theorem writeTrunc_ctrHi (r : Truncated) (s : State) : (writeTrunc r s).ctrHi = s.ctrHi := rfl
@[simp] theorem writeTrunc_key (r : Truncated) (s : State) : (writeTrunc r s).key = s.key := rfl
@[simp] theorem writeTrunc_digest (r : Truncated) (s : State) : (writeTrunc r s).digest = s.digest := rfl
@[simp] theorem writeTrunc_trunc (r : Truncated) (s : State) : (writeTrunc r s).trunc = r.val := rfl
@[simp] theorem writeTrunc_offset (r : Truncated) (s : State) : (writeTrunc r s).offset = r.off.setWidth 32 := rfl
@[simp] theorem writeTrunc_code (r : Truncated) (s : State) : (writeTrunc r s).code = s.code := rfl
@[simp] theorem writeTrunc_codeBcd (r : Truncated) (s : State) : (writeTrunc r s).codeBcd = s.codeBcd := rfl
@[simp] theorem writeTrunc_codeAsc0 (r : Truncated) (s : State) : (writeTrunc r s).codeAsc0 = s.codeAsc0 := rfl
@[simp] theorem writeTrunc_codeAsc1 (r : Truncated) (s : State) : (writeTrunc r s).codeAsc1 = s.codeAsc1 := rfl
@[simp] theorem writeTrunc_seq (r : Truncated) (s : State) : (writeTrunc r s).seq = s.seq := rfl
@[simp] theorem writeTrunc_hidden (r : Truncated) (s : State) : (writeTrunc r s).hidden = s.hidden := rfl
@[simp] theorem writeTrunc_rstN (r : Truncated) (s : State) : (writeTrunc r s).rstN = s.rstN := rfl
@[simp] theorem writeTrunc_resp (r : Truncated) (s : State) : (writeTrunc r s).resp = s.resp := rfl
@[simp] theorem writeTrunc_schedule (r : Truncated) (s : State) : (writeTrunc r s).schedule = s.schedule := rfl
@[simp] theorem writeTrunc_draws (r : Truncated) (s : State) : (writeTrunc r s).draws = s.draws := rfl

@[simp] theorem writeCode_cmd (f : Formatted) (s : State) : (writeCode f s).cmd = s.cmd := rfl
@[simp] theorem writeCode_done (f : Formatted) (s : State) : (writeCode f s).done = s.done := rfl
@[simp] theorem writeCode_err (f : Formatted) (s : State) : (writeCode f s).err = s.err := rfl
@[simp] theorem writeCode_busywr (f : Formatted) (s : State) : (writeCode f s).busywr = s.busywr := rfl
@[simp] theorem writeCode_errcode (f : Formatted) (s : State) : (writeCode f s).errcode = s.errcode := rfl
@[simp] theorem writeCode_keywr (f : Formatted) (s : State) : (writeCode f s).keywr = s.keywr := rfl
@[simp] theorem writeCode_doneIe (f : Formatted) (s : State) : (writeCode f s).doneIe = s.doneIe := rfl
@[simp] theorem writeCode_errIe (f : Formatted) (s : State) : (writeCode f s).errIe = s.errIe := rfl
@[simp] theorem writeCode_timeLo (f : Formatted) (s : State) : (writeCode f s).timeLo = s.timeLo := rfl
@[simp] theorem writeCode_timeHi (f : Formatted) (s : State) : (writeCode f s).timeHi = s.timeHi := rfl
@[simp] theorem writeCode_ctrLo (f : Formatted) (s : State) : (writeCode f s).ctrLo = s.ctrLo := rfl
@[simp] theorem writeCode_ctrHi (f : Formatted) (s : State) : (writeCode f s).ctrHi = s.ctrHi := rfl
@[simp] theorem writeCode_key (f : Formatted) (s : State) : (writeCode f s).key = s.key := rfl
@[simp] theorem writeCode_digest (f : Formatted) (s : State) : (writeCode f s).digest = s.digest := rfl
@[simp] theorem writeCode_trunc (f : Formatted) (s : State) : (writeCode f s).trunc = s.trunc := rfl
@[simp] theorem writeCode_offset (f : Formatted) (s : State) : (writeCode f s).offset = s.offset := rfl
@[simp] theorem writeCode_code (f : Formatted) (s : State) : (writeCode f s).code = f.code.setWidth 32 := rfl
@[simp] theorem writeCode_codeBcd (f : Formatted) (s : State) : (writeCode f s).codeBcd = f.bcd.setWidth 32 := rfl
@[simp] theorem writeCode_codeAsc0 (f : Formatted) (s : State) : (writeCode f s).codeAsc0 = BitVec.ofNat 32 (fromBE (f.chars.take 4)) := rfl
@[simp] theorem writeCode_codeAsc1 (f : Formatted) (s : State) : (writeCode f s).codeAsc1 = BitVec.ofNat 16 (fromBE ((f.chars.drop 4).take 2)) ++ 0#16 := rfl
@[simp] theorem writeCode_seq (f : Formatted) (s : State) : (writeCode f s).seq = s.seq := rfl
@[simp] theorem writeCode_hidden (f : Formatted) (s : State) : (writeCode f s).hidden = s.hidden := rfl
@[simp] theorem writeCode_rstN (f : Formatted) (s : State) : (writeCode f s).rstN = s.rstN := rfl
@[simp] theorem writeCode_resp (f : Formatted) (s : State) : (writeCode f s).resp = s.resp := rfl
@[simp] theorem writeCode_schedule (f : Formatted) (s : State) : (writeCode f s).schedule = s.schedule := rfl
@[simp] theorem writeCode_draws (f : Formatted) (s : State) : (writeCode f s).draws = s.draws := rfl

@[simp] theorem zeroizeResults_cmd (s : State) : (zeroizeResults s).cmd = s.cmd := rfl
@[simp] theorem zeroizeResults_done (s : State) : (zeroizeResults s).done = s.done := rfl
@[simp] theorem zeroizeResults_err (s : State) : (zeroizeResults s).err = s.err := rfl
@[simp] theorem zeroizeResults_busywr (s : State) : (zeroizeResults s).busywr = s.busywr := rfl
@[simp] theorem zeroizeResults_errcode (s : State) : (zeroizeResults s).errcode = s.errcode := rfl
@[simp] theorem zeroizeResults_keywr (s : State) : (zeroizeResults s).keywr = 0 := rfl
@[simp] theorem zeroizeResults_doneIe (s : State) : (zeroizeResults s).doneIe = s.doneIe := rfl
@[simp] theorem zeroizeResults_errIe (s : State) : (zeroizeResults s).errIe = s.errIe := rfl
@[simp] theorem zeroizeResults_timeLo (s : State) : (zeroizeResults s).timeLo = s.timeLo := rfl
@[simp] theorem zeroizeResults_timeHi (s : State) : (zeroizeResults s).timeHi = s.timeHi := rfl
@[simp] theorem zeroizeResults_ctrLo (s : State) : (zeroizeResults s).ctrLo = 0 := rfl
@[simp] theorem zeroizeResults_ctrHi (s : State) : (zeroizeResults s).ctrHi = 0 := rfl
@[simp] theorem zeroizeResults_key (s : State) : (zeroizeResults s).key = Vector.replicate 8 0 := rfl
@[simp] theorem zeroizeResults_digest (s : State) : (zeroizeResults s).digest = Vector.replicate 5 0 := rfl
@[simp] theorem zeroizeResults_trunc (s : State) : (zeroizeResults s).trunc = 0 := rfl
@[simp] theorem zeroizeResults_offset (s : State) : (zeroizeResults s).offset = 0 := rfl
@[simp] theorem zeroizeResults_code (s : State) : (zeroizeResults s).code = 0 := rfl
@[simp] theorem zeroizeResults_codeBcd (s : State) : (zeroizeResults s).codeBcd = 0 := rfl
@[simp] theorem zeroizeResults_codeAsc0 (s : State) : (zeroizeResults s).codeAsc0 = 0 := rfl
@[simp] theorem zeroizeResults_codeAsc1 (s : State) : (zeroizeResults s).codeAsc1 = 0 := rfl
@[simp] theorem zeroizeResults_seq (s : State) : (zeroizeResults s).seq = s.seq := rfl
@[simp] theorem zeroizeResults_hidden (s : State) : (zeroizeResults s).hidden = s.hidden := rfl
@[simp] theorem zeroizeResults_rstN (s : State) : (zeroizeResults s).rstN = s.rstN := rfl
@[simp] theorem zeroizeResults_resp (s : State) : (zeroizeResults s).resp = s.resp := rfl
@[simp] theorem zeroizeResults_schedule (s : State) : (zeroizeResults s).schedule = s.schedule := rfl
@[simp] theorem zeroizeResults_draws (s : State) : (zeroizeResults s).draws = s.draws := rfl

@[simp] theorem resetEngine_cmd (s : State) : (resetEngine s).cmd = State.reset.cmd := rfl
@[simp] theorem resetEngine_done (s : State) : (resetEngine s).done = State.reset.done := rfl
@[simp] theorem resetEngine_err (s : State) : (resetEngine s).err = State.reset.err := rfl
@[simp] theorem resetEngine_busywr (s : State) : (resetEngine s).busywr = State.reset.busywr := rfl
@[simp] theorem resetEngine_errcode (s : State) : (resetEngine s).errcode = State.reset.errcode := rfl
@[simp] theorem resetEngine_keywr (s : State) : (resetEngine s).keywr = State.reset.keywr := rfl
@[simp] theorem resetEngine_doneIe (s : State) : (resetEngine s).doneIe = State.reset.doneIe := rfl
@[simp] theorem resetEngine_errIe (s : State) : (resetEngine s).errIe = State.reset.errIe := rfl
@[simp] theorem resetEngine_timeLo (s : State) : (resetEngine s).timeLo = State.reset.timeLo := rfl
@[simp] theorem resetEngine_timeHi (s : State) : (resetEngine s).timeHi = State.reset.timeHi := rfl
@[simp] theorem resetEngine_ctrLo (s : State) : (resetEngine s).ctrLo = State.reset.ctrLo := rfl
@[simp] theorem resetEngine_ctrHi (s : State) : (resetEngine s).ctrHi = State.reset.ctrHi := rfl
@[simp] theorem resetEngine_key (s : State) : (resetEngine s).key = State.reset.key := rfl
@[simp] theorem resetEngine_digest (s : State) : (resetEngine s).digest = State.reset.digest := rfl
@[simp] theorem resetEngine_trunc (s : State) : (resetEngine s).trunc = State.reset.trunc := rfl
@[simp] theorem resetEngine_offset (s : State) : (resetEngine s).offset = State.reset.offset := rfl
@[simp] theorem resetEngine_code (s : State) : (resetEngine s).code = State.reset.code := rfl
@[simp] theorem resetEngine_codeBcd (s : State) : (resetEngine s).codeBcd = State.reset.codeBcd := rfl
@[simp] theorem resetEngine_codeAsc0 (s : State) : (resetEngine s).codeAsc0 = State.reset.codeAsc0 := rfl
@[simp] theorem resetEngine_codeAsc1 (s : State) : (resetEngine s).codeAsc1 = State.reset.codeAsc1 := rfl
@[simp] theorem resetEngine_seq (s : State) : (resetEngine s).seq = State.reset.seq := rfl
@[simp] theorem resetEngine_hidden (s : State) : (resetEngine s).hidden = State.reset.hidden := rfl
@[simp] theorem resetEngine_rstN (s : State) : (resetEngine s).rstN = false := rfl
@[simp] theorem resetEngine_resp (s : State) : (resetEngine s).resp = State.reset.resp := rfl
@[simp] theorem resetEngine_schedule (s : State) : (resetEngine s).schedule = s.schedule := rfl
@[simp] theorem resetEngine_draws (s : State) : (resetEngine s).draws = s.draws := rfl

@[simp] theorem afterMove_cmd (s : State) : (afterMove s).cmd = s.cmd := rfl
@[simp] theorem afterMove_done (s : State) : (afterMove s).done = s.done := rfl
@[simp] theorem afterMove_err (s : State) : (afterMove s).err = s.err := rfl
@[simp] theorem afterMove_busywr (s : State) : (afterMove s).busywr = s.busywr := rfl
@[simp] theorem afterMove_errcode (s : State) : (afterMove s).errcode = s.errcode := rfl
@[simp] theorem afterMove_keywr (s : State) : (afterMove s).keywr = s.keywr := rfl
@[simp] theorem afterMove_doneIe (s : State) : (afterMove s).doneIe = s.doneIe := rfl
@[simp] theorem afterMove_errIe (s : State) : (afterMove s).errIe = s.errIe := rfl
@[simp] theorem afterMove_timeLo (s : State) : (afterMove s).timeLo = s.timeLo := rfl
@[simp] theorem afterMove_timeHi (s : State) : (afterMove s).timeHi = s.timeHi := rfl
@[simp] theorem afterMove_ctrLo (s : State) : (afterMove s).ctrLo = s.ctrLo := rfl
@[simp] theorem afterMove_ctrHi (s : State) : (afterMove s).ctrHi = s.ctrHi := rfl
@[simp] theorem afterMove_key (s : State) : (afterMove s).key = s.key := rfl
@[simp] theorem afterMove_digest (s : State) : (afterMove s).digest = s.digest := rfl
@[simp] theorem afterMove_trunc (s : State) : (afterMove s).trunc = s.trunc := rfl
@[simp] theorem afterMove_offset (s : State) : (afterMove s).offset = s.offset := rfl
@[simp] theorem afterMove_code (s : State) : (afterMove s).code = s.code := rfl
@[simp] theorem afterMove_codeBcd (s : State) : (afterMove s).codeBcd = s.codeBcd := rfl
@[simp] theorem afterMove_codeAsc0 (s : State) : (afterMove s).codeAsc0 = s.codeAsc0 := rfl
@[simp] theorem afterMove_codeAsc1 (s : State) : (afterMove s).codeAsc1 = s.codeAsc1 := rfl
@[simp] theorem afterMove_seq (s : State) : (afterMove s).seq = s.seq := rfl
@[simp] theorem afterMove_hidden (s : State) : (afterMove s).hidden = s.hidden := rfl
@[simp] theorem afterMove_rstN (s : State) : (afterMove s).rstN = s.rstN := rfl
@[simp] theorem afterMove_resp (s : State) : (afterMove s).resp = s.resp := rfl
@[simp] theorem afterMove_schedule (s : State) : (afterMove s).schedule = s.schedule.tail := rfl
@[simp] theorem afterMove_draws (s : State) : (afterMove s).draws = s.draws := rfl

end Sys2Proof.Machine
end

