-- ==== Sys2Proof/Laws/Sequencer.lean ====
section
/-! SUPPORT. What the sequencer's operations and the meanings can do, said once. -/

namespace Sys2Proof.Machine

theorem busy_eq_true_iff (s : State) : busy s = true ↔ ∃ op, s.seq = .busy op := by
  unfold busy
  cases s.seq <;> simp

theorem busy_eq_false_iff (s : State) : busy s = false ↔ s.seq = .idle := by
  unfold busy
  cases s.seq <;> simp

theorem keyv_eq_true_iff (s : State) : keyv s = true ↔ s.keywr = 0xFF := by simp [keyv]

/-- Exec of each command (43_control R233). -/
def resultsOf : Instr → State → State
  | .nop => nopResults
  | .tstep => tstepResults
  | .hmac => hmacResults
  | .dtrunc => dtruncResults
  | .fmt6 => fmt6Results
  | .totp => totpResults
  | .zeroize => zeroizeResults

/-- Every meaning is the sequencer's operation on its own results. -/
theorem exec_eq_runCommand (i : Instr) (s : State) : exec i s = runCommand i (resultsOf i) s := by
  cases i <;> rfl

theorem runCommand_idle (op : Instr) (f : State → State) {s : State} (h : s.seq = .idle) :
    runCommand op f s = .next (accept op s) := by
  simp [runCommand, h]

theorem runCommand_commit (op : Instr) (f : State → State) {s : State} (h : s.seq = .busy op) :
    runCommand op f s = .next (finish (f s)) := by
  simp [runCommand, h]

theorem runCommand_other {op current : Instr} (f : State → State) {s : State} (h : s.seq = .busy current)
    (hne : current ≠ op) : runCommand op f s = .next (rejectBusy s) := by
  simp [runCommand, h, hne]

theorem exec_idle (i : Instr) {s : State} (h : s.seq = .idle) : exec i s = .next (accept i s) := by
  rw [exec_eq_runCommand, runCommand_idle i _ h]

theorem exec_commit (i : Instr) {s : State} (h : s.seq = .busy i) : exec i s = .next (finish (resultsOf i s)) := by
  rw [exec_eq_runCommand, runCommand_commit i _ h]

/-- All that a meaning can do: accept, commit, or be rejected. -/
theorem exec_cases {i : Instr} {s t : State} (h : exec i s = .next t) :
    (s.seq = .idle ∧ t = accept i s) ∨ (s.seq = .busy i ∧ t = finish (resultsOf i s)) ∨
      (∃ current, s.seq = .busy current ∧ current ≠ i ∧ t = rejectBusy s) := by
  rw [exec_eq_runCommand] at h
  cases hs : s.seq with
  | idle =>
    rw [runCommand_idle i _ hs] at h
    exact .inl ⟨rfl, by cases h; rfl⟩
  | busy current =>
    by_cases hc : current = i
    · subst hc
      rw [runCommand_commit current _ hs] at h
      exact .inr (.inl ⟨rfl, by cases h; rfl⟩)
    · rw [runCommand_other _ hs hc] at h
      exact .inr (.inr ⟨current, rfl, hc, by cases h; rfl⟩)

/-- No meaning faults or refuses: once requested or in flight, a command always has a next state (43_control R231). -/
theorem exec_next (i : Instr) (s : State) : ∃ t, exec i s = .next t := by
  rw [exec_eq_runCommand]
  unfold runCommand
  split
  · exact ⟨_, rfl⟩
  · split <;> exact ⟨_, rfl⟩

/-- Acceptance raises NO_KEY, or makes the command the one in flight. -/
theorem accept_cases (i : Instr) (s : State) :
    (needsKey i = true ∧ keyv s = false ∧ accept i s = cmdError .noKey (latchCommand (encode i) s)) ∨
      ((needsKey i = false ∨ keyv s = true) ∧ accept i s = enterBusy i (latchCommand (encode i) s)) := by
  unfold accept
  cases needsKey i <;> cases keyv s <;> simp

theorem accept_keyless {i : Instr} (h : needsKey i = false) (s : State) :
    accept i s = enterBusy i (latchCommand (encode i) s) := by
  simp [accept, h]

theorem accept_keyed (i : Instr) {s : State} (h : keyv s = true) :
    accept i s = enterBusy i (latchCommand (encode i) s) := by
  simp [accept, h]

theorem accept_noKey {i : Instr} (hi : needsKey i = true) {s : State} (h : keyv s = false) :
    accept i s = cmdError .noKey (latchCommand (encode i) s) := by
  simp [accept, hi, h]

theorem guardedWrite_busy (r : Reg) (w : Word) {s : State} (h : busy s = true) : guardedWrite r w s = rejectBusy s := by
  simp [guardedWrite, h]

theorem guardedWrite_idle (r : Reg) (w : Word) {s : State} (h : busy s = false) : guardedWrite r w s = storeReg r w s := by
  simp [guardedWrite, h]

end Sys2Proof.Machine
end

