-- ==== Sys2Proof/Laws/Bytes.lean ====
section
/-! SUPPORT. Byte strings: lengths, and packing undone by unpacking. -/

namespace Sys2Proof.Machine

@[simp] theorem beBytes_length (n v : Nat) : (beBytes n v).length = n := by
  induction n with
  | zero => rfl
  | succ n ih => simp [beBytes, ih]

@[simp] theorem zeros_length (n : Nat) : (zeros n).length = n := by simp [zeros]

@[simp] theorem be4_length (w : Word) : (be4 w).length = 4 := by simp [be4]

@[simp] theorem be8_length (v : DWord) : (be8 v).length = 8 := by simp [be8]

@[simp] theorem counterBytes_length (v : DWord) : (counterBytes v).length = 8 := by simp [counterBytes]

@[simp] theorem bytesOfWords_nil : bytesOfWords [] = [] := rfl

@[simp] theorem bytesOfWords_cons (w : Word) (ws : List Word) : bytesOfWords (w :: ws) = be4 w ++ bytesOfWords ws := rfl

@[simp] theorem bytesOfWords_length (ws : List Word) : (bytesOfWords ws).length = 4 * ws.length := by
  induction ws with
  | nil => rfl
  | cons w ws ih => simp [ih]; omega

@[simp] theorem chainBytes_length (h : Chain) : (chainBytes h).length = 20 := by simp [chainBytes]

@[simp] theorem keyBytes_length (s : State) : (keyBytes s).length = 32 := by simp [keyBytes]

@[simp] theorem digestBytes_length (s : State) : (digestBytes s).length = 20 := by simp [digestBytes]

/-- fromBE, one byte at a time from the front. -/
theorem fromBE_foldl (bs : List Byte) (acc : Nat) :
    bs.foldl (fun a b => a * 256 + b.toNat) acc = acc * 256 ^ bs.length + fromBE bs := by
  induction bs generalizing acc with
  | nil => simp [fromBE]
  | cons b bs ih =>
    simp only [List.foldl_cons, fromBE, List.length_cons]
    rw [ih, ih (0 * 256 + b.toNat)]
    ring

@[simp] theorem fromBE_nil : fromBE [] = 0 := rfl

theorem fromBE_cons (b : Byte) (bs : List Byte) : fromBE (b :: bs) = b.toNat * 256 ^ bs.length + fromBE bs := by
  have h := fromBE_foldl bs b.toNat
  simpa [fromBE] using h

theorem fromBE_lt (bs : List Byte) : fromBE bs < 256 ^ bs.length := by
  induction bs with
  | nil => simp
  | cons b bs ih =>
    have hb := b.isLt
    rw [fromBE_cons, List.length_cons, pow_succ]
    nlinarith [Nat.pow_pos (n := bs.length) (show 0 < 256 by norm_num)]

/-- A number is read back from its big-endian bytes (00_scope R11). -/
theorem fromBE_beBytes (n v : Nat) : fromBE (beBytes n v) = v % 256 ^ n := by
  induction n with
  | zero => simp [beBytes, Nat.mod_one]
  | succ n ih =>
    have h8 : (2 : Nat) ^ 8 = 256 := rfl
    rw [beBytes, fromBE_cons, ih, beBytes_length, BitVec.toNat_ofNat, h8, pow_succ 256 n, Nat.mod_mul, Nat.mul_comm,
      Nat.add_comm]

theorem fromBE_be4 (w : Word) : fromBE (be4 w) = w.toNat := by
  have h := w.isLt
  rw [be4, fromBE_beBytes]
  exact Nat.mod_eq_of_lt (by simpa using h)

/-- Big-endian bytes are read back from their number. -/
theorem beBytes_fromBE (bs : List Byte) : beBytes bs.length (fromBE bs) = bs := by
  induction bs with
  | nil => rfl
  | cons b bs ih =>
    have hlt := fromBE_lt bs
    have hpos : 0 < 256 ^ bs.length := by positivity
    have hhead : BitVec.ofNat 8 (fromBE (b :: bs) / 256 ^ bs.length) = b := by
      rw [fromBE_cons, Nat.add_comm, Nat.add_mul_div_right _ _ hpos, Nat.div_eq_of_lt hlt]
      simp
    have htail : beBytes bs.length (fromBE (b :: bs)) = beBytes bs.length (fromBE bs) := by
      rw [fromBE_cons]
      clear hhead ih hlt hpos
      generalize fromBE bs = v
      have key : ∀ n m : Nat, n ≤ m → beBytes n (b.toNat * 256 ^ m + v) = beBytes n v := by
        intro n
        induction n with
        | zero => intros; rfl
        | succ n ih =>
          intro m hm
          simp only [beBytes]
          rw [ih m (by omega)]
          congr 1
          apply BitVec.eq_of_toNat_eq
          obtain ⟨k, rfl⟩ : ∃ k, m = n + (k + 1) := ⟨m - (n + 1), by omega⟩
          have : b.toNat * 256 ^ (n + (k + 1)) + v = v + 256 ^ n * (256 * (b.toNat * 256 ^ k)) := by ring
          rw [this, BitVec.toNat_ofNat, BitVec.toNat_ofNat, Nat.add_mul_div_left _ _ (by positivity)]
          omega
      exact key _ _ le_rfl
    rw [List.length_cons, beBytes, hhead, htail, ih]

end Sys2Proof.Machine
end

