-- ==== Sys2Proof/Laws/Bus.lean ====
section
/-! SUPPORT. What a transfer and a step can do, said once: the lemmas later proofs cite in place of unfolding `serve` and `step`. -/

namespace Sys2Proof.Machine

/-! ### Decoding -/

@[simp] theorem decode_encode (i : Instr) : decode (encode i) = .ok i := by cases i <;> rfl

theorem zeroExtend_toNat (op : BitVec 8) : (0#24 ++ op : Word).toNat = op.toNat :=
  (BitVec.toNat_append 0#24 op).trans (by simp)

/-- A legal word is the one word of its command (30_encoding R102). -/
theorem encode_of_decode {w : Word} {i : Instr} (h : decode w = .ok i) : w = encode i := by
  unfold decode at h
  split at h
  · cases h
  · rename_i hr
    have hw : w = 0#24 ++ w.extractLsb' 0 8 := by
      have hr' : w.extractLsb' 8 24 = 0#24 := by simpa using hr
      apply BitVec.eq_of_toNat_eq
      have h1 := congrArg BitVec.toNat hr'
      have h2 := w.isLt
      rw [zeroExtend_toNat]
      simp [BitVec.extractLsb'_toNat, Nat.shiftRight_eq_div_pow] at h1 ⊢
      omega
    generalize w.extractLsb' 0 8 = op at h hw
    subst hw
    have hop : op = BitVec.ofNat 8 op.toNat := by simp
    split at h <;> rename_i hn <;> first | (rw [hn] at hop; cases h; subst hop; rfl) | cases h

/-! ### The register map -/

@[simp] theorem regAt_regOffset (r : Reg) : regAt (regOffset r) = some r := by
  cases r with
  | key i => fin_cases i <;> rfl
  | digest i => fin_cases i <;> rfl
  | _ => rfl

theorem regOffset_of_regAt {off : BitVec 8} {r : Reg} (h : regAt off = some r) : off = regOffset r := by
  have hoff : off = BitVec.ofNat 8 off.toNat := by simp
  unfold regAt at h
  split at h <;> rename_i hn <;> first | (rw [hn] at hoff; cases h; exact hoff) | cases h

@[simp] theorem aligned_regOffset (r : Reg) : alignedOffset (regOffset r) = true := by
  cases r with
  | key i => fin_cases i <;> rfl
  | digest i => fin_cases i <;> rfl
  | _ => rfl

@[simp] theorem fullEnable_all : fullEnable 15#4 = true := rfl

/-! ### Transfers -/

@[simp] theorem busRead_rd (r : Reg) (s : State) : busRead (regOffset r) 15#4 s = (readReg r s, false) := by
  simp [busRead]

@[simp] theorem busWriteErr_regOffset (r : Reg) : busWriteErr (regOffset r) 15#4 = readOnly r := by
  simp [busWriteErr]

theorem serve_read (off : BitVec 8) (be : BitVec 4) (s : State) :
    serve (.read off be) s = .next (respond (.read (busRead off be s).1 (busRead off be s).2) s) := rfl

theorem serve_rd (r : Reg) (s : State) : serve (rd r) s = .next (respond (.read (readReg r s) false) s) := by
  simp [rd, serve_read]

theorem serve_write_error {off : BitVec 8} {be : BitVec 4} (h : busWriteErr off be = true) (w : Word) (s : State) :
    serve (.write off be w) s = .next (respond (.write true) s) := by
  simp [serve, busWrite, response, h]

theorem serve_wr {r : Reg} (h : readOnly r = false) (w : Word) (s : State) :
    serve (wr r w) s = writeReg r w (respond (.write false) s) := by
  simp [serve, wr, busWrite, response, h]

/-- A write is a bus error without effect, or a whole write to a register that is not read-only (20_memory R73, R80). -/
theorem write_cases (off : BitVec 8) (be : BitVec 4) (w : Word) :
    busWriteErr off be = true ∨ ∃ r, readOnly r = false ∧ Transfer.write off be w = wr r w := by
  cases he : busWriteErr off be with
  | true => exact .inl rfl
  | false =>
    right
    unfold busWriteErr at he
    split at he
    · cases he
    · rename_i hwf
      simp [fullEnable] at hwf
      split at he
      · rename_i r hr
        exact ⟨r, he, by rw [wr, ← regOffset_of_regAt hr]; simp [hwf.2]⟩
      · cases he

theorem commandRequest_busy (w : Word) {s : State} (h : busy s = true) : commandRequest w s = .next (rejectBusy s) := by
  obtain ⟨op, hop⟩ := (busy_eq_true_iff s).1 h
  simp [commandRequest, hop]

theorem commandRequest_illegal {w : Word} {e : Illegal} (hd : decode w = .error e) {s : State} (h : s.seq = .idle) :
    commandRequest w s = .next (rejectIllegal w s) := by
  simp [commandRequest, h, hd]

theorem commandRequest_legal {w : Word} {i : Instr} (hd : decode w = .ok i) {s : State} (h : s.seq = .idle) :
    commandRequest w s = exec i s := by
  simp [commandRequest, h, hd]

/-- All that a CMD write can do (43_control R230). -/
theorem commandRequest_cases (w : Word) (s : State) :
    (busy s = true ∧ commandRequest w s = .next (rejectBusy s)) ∨
      (s.seq = .idle ∧ (∃ e, decode w = .error e) ∧ commandRequest w s = .next (rejectIllegal w s)) ∨
      (s.seq = .idle ∧ ∃ i, w = encode i ∧ commandRequest w s = .next (accept i s)) := by
  cases hs : s.seq with
  | busy op =>
    have hb : busy s = true := (busy_eq_true_iff s).2 ⟨op, hs⟩
    exact .inl ⟨hb, commandRequest_busy w hb⟩
  | idle =>
    cases hd : decode w with
    | error e => exact .inr (.inl ⟨rfl, ⟨e, rfl⟩, commandRequest_illegal hd hs⟩)
    | ok i =>
      exact .inr (.inr ⟨rfl, i, encode_of_decode hd, by rw [commandRequest_legal hd hs, exec_idle i hs]⟩)

/-- A write to a register always completes. -/
theorem writeReg_next (r : Reg) (w : Word) (s : State) : ∃ t, writeReg r w s = .next t := by
  cases r <;> try exact ⟨_, rfl⟩
  rcases commandRequest_cases w s with ⟨-, h⟩ | ⟨-, -, h⟩ | ⟨-, i, -, h⟩ <;> exact ⟨_, h⟩

/-- A transfer out of reset always completes (20_memory R71). -/
theorem serve_next (tr : Transfer) (s : State) : ∃ t, serve tr s = .next t := by
  cases tr with
  | read off be => exact ⟨_, rfl⟩
  | write off be w =>
    rcases write_cases off be w with he | ⟨r, hr, hw⟩
    · exact ⟨_, serve_write_error he w s⟩
    · rw [hw, serve_wr hr]
      exact writeReg_next r w _

/-! ### Steps -/

theorem afterMove_of_nil {s : State} (h : s.schedule = []) : afterMove s = s := by
  cases s
  simp_all [afterMove]

theorem schedule_of_head {s : State} {e : Event} (h : s.schedule.head? = some e) : s.schedule = e :: s.schedule.tail := by
  cases hs : s.schedule <;> simp_all

theorem step_of_head {s : State} {e : Event} (h : s.schedule.head? = some e) : step s = handleEvent e (afterMove s) := by
  unfold step nextMove
  rw [schedule_of_head h]
  rfl

theorem step_host {s : State} {tr : Transfer} (h : hostMoves s tr) (hr : s.rstN = true) :
    step s = serve tr (afterMove s) := by
  rw [step_of_head h]
  simp [handleEvent, hr]

theorem step_host_inReset {s : State} {tr : Transfer} (h : hostMoves s tr) (hr : s.rstN = false) :
    step s = .refused .transferDuringReset := by
  rw [step_of_head h]
  simp [handleEvent, hr]

theorem step_engine {s : State} (h : engineMoves s) : step s = engineTurn (afterMove s) := by
  rcases h with h | h
  · have hs : s.schedule = [] := by simpa using h
    rw [afterMove_of_nil hs]
    simp [step, nextMove, hs]
  · rw [step_of_head h]
    rfl

theorem step_resetAssert {s : State} {lost : Option Transfer} (h : s.schedule.head? = some (.resetAssert lost)) :
    step s = .next (resetEngine (afterMove s)) := by
  rw [step_of_head h]
  rfl

theorem step_resetRelease {s : State} (h : s.schedule.head? = some .resetRelease) :
    step s = .next { afterMove s with rstN := true } := by
  rw [step_of_head h]
  rfl

/-- All that a step can do. -/
theorem step_cases {s t : State} (h : step s = .next t) :
    (∃ tr, hostMoves s tr ∧ s.rstN = true ∧ serve tr (afterMove s) = .next t) ∨
      (engineMoves s ∧ engineTurn (afterMove s) = .next t) ∨
      (resetMoves s ∧ t = resetEngine (afterMove s)) ∨
      (s.schedule.head? = some .resetRelease ∧ t = { afterMove s with rstN := true }) := by
  cases hh : s.schedule.head? with
  | none => exact .inr (.inl ⟨.inl hh, by rwa [← step_engine (.inl hh)]⟩)
  | some e =>
    cases e with
    | host tr =>
      cases hr : s.rstN with
      | true => exact .inl ⟨tr, hh, rfl, by rwa [← step_host hh hr]⟩
      | false => rw [step_host_inReset hh hr] at h; cases h
    | engine => exact .inr (.inl ⟨.inr hh, by rwa [← step_engine (.inr hh)]⟩)
    | resetAssert lost =>
      rw [step_resetAssert hh] at h
      exact .inr (.inr (.inl ⟨⟨lost, hh⟩, by cases h; rfl⟩))
    | resetRelease =>
      rw [step_resetRelease hh] at h
      exact .inr (.inr (.inr ⟨rfl, by cases h; rfl⟩))

/-! ### What moves leave alone: the schedule -/

@[simp] theorem resultsOf_schedule (i : Instr) (s : State) : (resultsOf i s).schedule = s.schedule := by cases i <;> rfl

@[simp] theorem resultsOf_rstN (i : Instr) (s : State) : (resultsOf i s).rstN = s.rstN := by cases i <;> rfl

@[simp] theorem accept_schedule (i : Instr) (s : State) : (accept i s).schedule = s.schedule := by
  rcases accept_cases i s with ⟨-, -, h⟩ | ⟨-, h⟩ <;> simp [h]

@[simp] theorem storeReg_schedule (r : Reg) (w : Word) (s : State) : (storeReg r w s).schedule = s.schedule := by
  cases r <;> rfl

@[simp] theorem guardedWrite_schedule (r : Reg) (w : Word) (s : State) : (guardedWrite r w s).schedule = s.schedule := by
  unfold guardedWrite
  split <;> simp

theorem exec_schedule {i : Instr} {s t : State} (h : exec i s = .next t) : t.schedule = s.schedule := by
  rcases exec_cases h with ⟨-, rfl⟩ | ⟨-, rfl⟩ | ⟨_, -, -, rfl⟩ <;> simp

theorem writeReg_schedule {r : Reg} {w : Word} {s t : State} (h : writeReg r w s = .next t) : t.schedule = s.schedule := by
  cases r
  case cmd =>
    change commandRequest w s = .next t at h
    rcases commandRequest_cases w s with ⟨-, h'⟩ | ⟨-, -, h'⟩ | ⟨-, i, -, h'⟩ <;> rw [h'] at h <;> cases h <;>
      simp [rejectIllegal]
  all_goals (simp only [writeReg, Host.Outcome.next.injEq] at h; subst h; simp)

theorem serve_schedule {tr : Transfer} {s t : State} (h : serve tr s = .next t) : t.schedule = s.schedule := by
  cases tr with
  | read off be => rw [serve_read] at h; cases h; simp
  | write off be w =>
    rcases write_cases off be w with he | ⟨r, hr, hw⟩
    · rw [serve_write_error he] at h; cases h; simp
    · rw [hw, serve_wr hr] at h
      simpa using writeReg_schedule h

theorem engineTurn_schedule {s t : State} (h : engineTurn s = .next t) : t.schedule = s.schedule := by
  unfold engineTurn at h
  split at h
  · cases h; rfl
  · exact exec_schedule h

/-- Every step takes exactly one move off the schedule. -/
theorem step_schedule {s t : State} (h : step s = .next t) : t.schedule = s.schedule.tail := by
  rcases step_cases h with ⟨tr, -, -, h'⟩ | ⟨-, h'⟩ | ⟨-, rfl⟩ | ⟨-, rfl⟩
  · simpa using serve_schedule h'
  · simpa using engineTurn_schedule h'
  · simp
  · rfl

/-! ### Runs -/

theorem runsTo_nil (s : State) : RunsTo s [] { s with schedule := [] } := rfl

theorem run_succ {s u : State} (h : step s = .next u) (k : Nat) :
    Sys2Proof.core.run (k + 1) s = Sys2Proof.core.run k u := by
  have h' : Sys2Proof.core.step s = .next u := h
  simp [Host.Core.run, h']

/-- A run is its first step and the run of the rest. -/
theorem runsTo_cons {s u t : State} {e : Event} {es : List Event} (h : step { s with schedule := e :: es } = .next u)
    (ht : RunsTo u es t) : RunsTo s (e :: es) t := by
  have hs : u.schedule = es := by simpa using step_schedule h
  have hu : { u with schedule := es } = u := by cases u; simp_all
  unfold RunsTo at ht ⊢
  rw [hu] at ht
  rw [List.length_cons, run_succ h]
  exact ht

end Sys2Proof.Machine
end

