-- ==== Sys2Proof/Laws/PerInstr.lean ====
section
/-! SUPPORT. The families of statements made command by command. -/

namespace Sys2Proof.Laws.LegalWord

/-- The word of a command is legal (30_encoding R101, R102, R104), carries the OP of the command, and decodes to it. -/
def Statement (i : Instr) : Prop :=
  i.wf = true ∧ commandWordWf (encode i) = true ∧ (encode i).toNat = (opcode i).toNat ∧ decode (encode i) = .ok i ∧
    decodeTableWord 32 (encode i).toNat = some i

theorem nop : Statement .nop := ⟨rfl, rfl, rfl, rfl, rfl⟩
theorem tstep : Statement .tstep := ⟨rfl, rfl, rfl, rfl, rfl⟩
theorem hmac : Statement .hmac := ⟨rfl, rfl, rfl, rfl, rfl⟩
theorem dtrunc : Statement .dtrunc := ⟨rfl, rfl, rfl, rfl, rfl⟩
theorem fmt6 : Statement .fmt6 := ⟨rfl, rfl, rfl, rfl, rfl⟩
theorem totp : Statement .totp := ⟨rfl, rfl, rfl, rfl, rfl⟩
theorem zeroize : Statement .zeroize := ⟨rfl, rfl, rfl, rfl, rfl⟩

end Sys2Proof.Laws.LegalWord
end

