-- ==== Sys2Proof/Laws/Results.lean ====
section
/-! SUPPORT. What the pure functions of the commands return, as numbers: one lemma per function. -/

namespace Sys2Proof.Machine

theorem append_toNat {m n : Nat} (x : BitVec m) (y : BitVec n) : (x ++ y).toNat = x.toNat * 2 ^ n + y.toNat := by
  rw [BitVec.toNat_append, ← Nat.shiftLeft_add_eq_or_of_lt y.isLt, Nat.shiftLeft_eq]

theorem ofBool_toNat (b : Bool) : (BitVec.ofBool b).toNat = b.toNat := by cases b <;> rfl

/-! ### STATUS -/

/-- The STATUS word as a number (10_state R24). -/
theorem statusWord_toNat (s : State) :
    (statusWord s).toNat = (((((keyv s).toNat * 2 ^ 8 + s.keywr.toNat) * 2 ^ 4 + (errBits s.errcode).toNat) * 2
      + s.busywr.toNat) * 2 + s.err.toNat) * 2 ^ 2 + s.done.toNat * 2 + (busy s).toNat := by
  have key : ∀ (a c d e f : Bool) (k : BitVec 8) (er : BitVec 4),
      (0#15 ++ BitVec.ofBool a ++ k ++ er ++ BitVec.ofBool c ++ BitVec.ofBool d ++ BitVec.ofBool e ++ BitVec.ofBool f).toNat
        = ((((a.toNat * 2 ^ 8 + k.toNat) * 2 ^ 4 + er.toNat) * 2 + c.toNat) * 2 + d.toNat) * 2 ^ 2 + e.toNat * 2 + f.toNat := by
    intro a c d e f k er
    simp only [append_toNat, ofBool_toNat]
    simp
    omega
  exact key _ _ _ _ _ _ _

/-! ### Time steps -/

theorem timeStep_toNat (t : DWord) : (timeStep t).toNat = t.toNat / 30 := by
  have := t.isLt
  simp [timeStep, Config.tStep]
  omega

theorem timeVal_toNat (s : State) : (timeVal s).toNat = s.timeHi.toNat * 2 ^ 32 + s.timeLo.toNat :=
  append_toNat s.timeHi s.timeLo

/-- The two halves of a counter, as a number. -/
theorem halves_toNat (c : DWord) : (c.extractLsb' 32 32).toNat * 2 ^ 32 + (c.extractLsb' 0 32).toNat = c.toNat := by
  have := c.isLt
  simp [Nat.shiftRight_eq_div_pow]
  omega

theorem halves_append (c : DWord) : (c.extractLsb' 32 32 ++ c.extractLsb' 0 32 : DWord) = c := by
  apply BitVec.eq_of_toNat_eq
  exact (append_toNat (c.extractLsb' 32 32) (c.extractLsb' 0 32)).trans (halves_toNat c)

/-- CTRVAL reads back the counter that TSTEP writes (40_timestep R132). -/
theorem ctrVal_writeCtr (c : DWord) (s : State) : ctrVal (writeCtr c s) = c := halves_append c

/-! ### Words of byte strings -/

theorem fromBE_append (a b : List Byte) : fromBE (a ++ b) = fromBE a * 256 ^ b.length + fromBE b := by
  unfold fromBE
  rw [List.foldl_append, fromBE_foldl]
  rfl

/-- Four bytes of a string are a slice of its number. -/
theorem fromBE_slice (bs : List Byte) (k : Nat) (h : k + 4 ≤ bs.length) :
    fromBE ((bs.drop k).take 4) = fromBE bs / 256 ^ (bs.length - k - 4) % 256 ^ 4 := by
  have e : bs = bs.take k ++ ((bs.drop k).take 4 ++ (bs.drop k).drop 4) := by
    rw [List.take_append_drop, List.take_append_drop]
  have l1 : ((bs.drop k).take 4).length = 4 := by simp; omega
  have l2 : ((bs.drop k).drop 4).length = bs.length - k - 4 := by simp; omega
  have b1 := fromBE_lt ((bs.drop k).take 4)
  have b2 := fromBE_lt ((bs.drop k).drop 4)
  rw [l1] at b1
  rw [l2] at b2
  conv_rhs => rw [e]
  rw [fromBE_append, fromBE_append, List.length_append, l1, l2]
  have hl : (List.take k bs ++ (List.take 4 (List.drop k bs) ++ List.drop 4 (List.drop k bs))).length = bs.length := by
    rw [← e]
  rw [hl]
  generalize bs.length - k - 4 = n at *
  rw [show ∀ A B C : Nat, A * 256 ^ (4 + n) + (B * 256 ^ n + C) = 256 ^ n * (256 ^ 4 * A + B) + C by intros; ring,
    Nat.mul_add_div (by positivity), Nat.div_eq_of_lt b2, add_zero, Nat.mul_add_mod, Nat.mod_eq_of_lt b1]

theorem wordAt_bytesOfWords (ws : List Word) (i : Nat) (h : i < ws.length) : wordAt (bytesOfWords ws) i = ws[i] := by
  induction ws generalizing i with
  | nil => simp at h
  | cons w ws ih =>
    cases i with
    | zero => simp [wordAt, fromBE_be4]
    | succ i =>
      have := ih i (by simpa using h)
      simp only [wordAt, bytesOfWords_cons, List.getElem_cons_succ] at this ⊢
      rw [← this, show 4 * (i + 1) = (be4 w).length + 4 * i by simp; omega, List.drop_length_add_append]

theorem be4_ofNat_fromBE (bs : List Byte) (h : bs.length = 4) : be4 (BitVec.ofNat 32 (fromBE bs)) = bs := by
  have hlt := fromBE_lt bs
  have hbs := beBytes_fromBE bs
  rw [h] at hlt hbs
  rw [be4, BitVec.toNat_ofNat, Nat.mod_eq_of_lt (by simpa using hlt), hbs]

theorem bytesOfWords_wordAt (bs : List Byte) (n : Nat) (h : bs.length = 4 * n) :
    bytesOfWords ((List.range n).map (wordAt bs)) = bs := by
  induction n generalizing bs with
  | zero => simp at h; simp [h]
  | succ n ih =>
    rw [List.range_succ_eq_map, List.map_cons, bytesOfWords_cons, List.map_map]
    have hd : (List.range n).map (wordAt bs ∘ Nat.succ) = (List.range n).map (wordAt (bs.drop 4)) := by
      apply List.map_congr_left
      intro i _
      simp only [Function.comp, wordAt, List.drop_drop, Nat.succ_eq_add_one]
      rw [show 4 * (i + 1) = 4 + 4 * i by ring]
    rw [hd, ih (bs.drop 4) (by simp; omega), wordAt, Nat.mul_zero, List.drop_zero,
      be4_ofNat_fromBE _ (by simp; omega), List.take_append_drop]

/-- DIGEST holds the 20 bytes it was written from (41_hmac_sha1 R170, 10_state R33). -/
theorem bytesOfWords_digestWords (bs : List Byte) (h : bs.length = 20) : bytesOfWords (digestWords bs).toList = bs :=
  bytesOfWords_wordAt bs 5 (by omega)

/-! ### SHA-1 and HMAC -/

@[simp] theorem hmacEngine_length (k : List Byte) (c : DWord) : (hmacEngine k c).length = 20 := by simp [hmacEngine]

@[simp] theorem sha1_length (m : List Byte) : (sha1 m).length = 20 := by simp [sha1]

/-- SHA-1 of a 64-byte block and a short tail is two compressions (41_hmac_sha1 R151, R157). -/
theorem sha1_two_blocks (a b : List Byte) (ha : a.length = 64) (hb : b.length + 9 + padZeros (64 + b.length) = 64) :
    sha1 (a ++ b) = chainBytes (sha1Compress (sha1Compress sha1Iv a)
      (b ++ [0x80] ++ zeros (padZeros (64 + b.length)) ++ beBytes 8 (8 * (64 + b.length)))) := by
  have hp : sha1Pad (a ++ b)
      = a ++ (b ++ [0x80] ++ zeros (padZeros (64 + b.length)) ++ beBytes 8 (8 * (64 + b.length))) := by
    simp [sha1Pad, ha]
  have hlen : (b ++ [0x80] ++ zeros (padZeros (64 + b.length)) ++ beBytes 8 (8 * (64 + b.length))).length = 64 := by
    simp
    omega
  unfold sha1
  rw [hp]
  generalize b ++ [0x80] ++ zeros (padZeros (64 + b.length)) ++ beBytes 8 (8 * (64 + b.length)) = c at *
  simp [ha, hlen, Config.sha1BlockBytes, sha1Blocks, List.take_of_length_le]

/-! ### Truncation -/

theorem fromBE_digest (d : Vector Word 5) : fromBE (bytesOfWords d.toList) = digestNumber d := by
  obtain ⟨⟨l⟩, hl⟩ := d
  match l, hl with
  | [a, b, c, e, f], _ =>
    simp [digestNumber, fromBE_append, fromBE_be4]
    ring

theorem lastByte_toNat (bs : List Byte) (h : bs.length = 20) : (bs.getD 19 0).toNat = fromBE bs % 256 := by
  have e : bs = bs.take 19 ++ [bs.getD 19 0] := by
    apply List.ext_getElem (by simp [h])
    intro i h1 h2
    simp only [List.getElem_append]
    rcases Nat.lt_or_ge i 19 with h3 | h3
    · simp [h, h3]
    · obtain rfl : i = 19 := by omega
      simp [h]
  conv_rhs => rw [e]
  rw [fromBE_append]
  have := (bs.getD 19 0).isLt
  simp only [fromBE_cons, fromBE_nil, List.length_singleton, List.length_nil]
  omega

theorem dynTrunc_val_lt (d : List Byte) : (dynTrunc d).val.toNat < 2 ^ 31 := by
  simp only [dynTrunc]
  rw [BitVec.toNat_and, show BitVec.toNat (0x7FFFFFFF : BitVec 32) = 2 ^ 31 - 1 by rfl, Nat.and_two_pow_sub_one_eq_mod]
  exact Nat.mod_lt _ (by norm_num)

/-- DynTrunc as the slice of the 160-bit digest (42_truncate_format R201). -/
theorem dynTrunc_spec (d : Vector Word 5) :
    TruncationOf d ((dynTrunc (bytesOfWords d.toList)).off.setWidth 32) (dynTrunc (bytesOfWords d.toList)).val := by
  have hl : (bytesOfWords d.toList).length = 20 := by simp
  have hb := lastByte_toNat _ hl
  have hoff : ((bytesOfWords d.toList).getD 19 0 &&& 0x0F).toNat = digestNumber d % 16 := by
    rw [BitVec.toNat_and, hb, fromBE_digest, show BitVec.toNat (15 : BitVec 8) = 2 ^ 4 - 1 by rfl,
      Nat.and_two_pow_sub_one_eq_mod]
    omega
  have hlt : digestNumber d % 16 < 16 := Nat.mod_lt _ (by norm_num)
  unfold TruncationOf dynTrunc
  simp only
  constructor
  · rw [BitVec.toNat_setWidth, BitVec.toNat_setWidth, hoff]
    omega
  · rw [BitVec.toNat_and, BitVec.toNat_ofNat, hoff, fromBE_slice _ _ (by omega), hl, fromBE_digest,
      show BitVec.toNat (0x7FFFFFFF : BitVec 32) = 2 ^ 31 - 1 by rfl, Nat.and_two_pow_sub_one_eq_mod]
    generalize digestNumber d % 16 = o at *
    have : (256 : Nat) ^ (20 - o - 4) = 2 ^ (128 - 8 * o) := by
      rw [show (256 : Nat) = 2 ^ 8 by rfl, ← pow_mul]
      congr 1
      omega
    rw [this]
    norm_num

/-! ### Format -/

/-- The code registers after FMT6 of `v` (42_truncate_format R210, R211). -/
theorem format6_spec (v : Word) (s : State) : CodeOf v (writeCode (format6 v) s) := by
  unfold CodeOf
  simp only [writeCode_code, writeCode_codeBcd, writeCode_codeAsc0, writeCode_codeAsc1, format6]
  have hc : v.toNat % Config.modulus < 1000000 := Nat.mod_lt _ (by norm_num [Config.modulus])
  rw [show Config.modulus = 1000000 by rfl] at *
  generalize v.toNat % 1000000 = c at *
  have hd : ∀ k, c / 10 ^ (5 - k) % 10 < 10 := fun k => Nat.mod_lt _ (by norm_num)
  have h0 := hd 0; have h1 := hd 1; have h2 := hd 2; have h3 := hd 3; have h4 := hd 4; have h5 := hd 5
  have e : codeDigits c = [c / 10 ^ (5 - 0) % 10, c / 10 ^ (5 - 1) % 10, c / 10 ^ (5 - 2) % 10,
    c / 10 ^ (5 - 3) % 10, c / 10 ^ (5 - 4) % 10, c / 10 ^ (5 - 5) % 10] := rfl
  rw [e]
  generalize c / 10 ^ (5 - 0) % 10 = d0 at *
  generalize c / 10 ^ (5 - 1) % 10 = d1 at *
  generalize c / 10 ^ (5 - 2) % 10 = d2 at *
  generalize c / 10 ^ (5 - 3) % 10 = d3 at *
  generalize c / 10 ^ (5 - 4) % 10 = d4 at *
  generalize c / 10 ^ (5 - 5) % 10 = d5 at *
  refine ⟨?_, ?_, ?_, ?_⟩
  · simp; omega
  · simp; omega
  · simp [fromBE]; omega
  · refine (append_toNat _ 0#16).trans ?_
    simp [fromBE]; omega

theorem be4_upper (a b : Byte) : (be4 (BitVec.ofNat 16 (fromBE [a, b]) ++ 0#16)).take 2 = [a, b] := by
  have h := append_toNat (BitVec.ofNat 16 (fromBE [a, b])) 0#16
  have ha := a.isLt
  have hb := b.isLt
  have e : ∀ w : Word, (be4 w).take 2 = [BitVec.ofNat 8 (w.toNat / 256 ^ 3), BitVec.ofNat 8 (w.toNat / 256 ^ 2)] :=
    fun _ => rfl
  refine (e _).trans ?_
  rw [show (BitVec.ofNat 16 (fromBE [a, b]) ++ 0#16 : Word).toNat = _ from h]
  simp only [fromBE_cons, fromBE_nil, BitVec.toNat_ofNat, List.length_cons, List.length_nil]
  congr 1
  · apply BitVec.eq_of_toNat_eq; rw [BitVec.toNat_ofNat]; omega
  · congr 1; apply BitVec.eq_of_toNat_eq; rw [BitVec.toNat_ofNat]; omega

/-- CODESTR reads back the characters FMT6 writes (42_truncate_format R211, 10_state R39). -/
theorem codeStr_writeCode (v : Word) (s : State) : codeStr (writeCode (format6 v) s) = (format6 v).chars := by
  obtain ⟨a, b, c, d, e, f, h⟩ : ∃ a b c d e f, (format6 v).chars = [a, b, c, d, e, f] := ⟨_, _, _, _, _, _, rfl⟩
  unfold codeStr
  simp only [writeCode_codeAsc0, writeCode_codeAsc1, h, List.take_succ_cons, List.take_zero, List.drop_succ_cons,
    List.drop_zero]
  rw [be4_ofNat_fromBE _ rfl, be4_upper]
  rfl

end Sys2Proof.Machine
end

