-- ==== Sys2Proof/Laws/Step.lean ====
section
/-! SUPPORT. The inversion of a step: everything one step can do, said once, and the steps of a scheduled sequence. -/

namespace Sys2Proof.Machine

/-- All that a write to a register can do (20_memory R73). -/
theorem writeReg_cases {r : Reg} {w : Word} {s t : State} (h : writeReg r w s = .next t) :
    (r = .cmd ∧ commandRequest w s = .next t) ∨ (r = .status ∧ t = statusW1c w s) ∨ (r = .irqEn ∧ t = writeIrqEn w s) ∨
      (guarded r = true ∧ busy s = true ∧ t = rejectBusy s) ∨
      (guarded r = true ∧ busy s = false ∧ t = storeReg r w s) ∨ (readOnly r = true ∧ t = s) := by
  cases r <;> simp only [writeReg, Host.Outcome.next.injEq] at h
  case cmd => exact .inl ⟨rfl, h⟩
  case status => exact .inr (.inl ⟨rfl, h.symm⟩)
  case irqEn => exact .inr (.inr (.inl ⟨rfl, h.symm⟩))
  all_goals first
    | (subst h; exact .inr (.inr (.inr (.inr (.inr ⟨rfl, rfl⟩)))))
    | (cases hb : busy s with
       | true => rw [guardedWrite_busy _ _ hb] at h; exact .inr (.inr (.inr (.inl ⟨rfl, rfl, h.symm⟩)))
       | false => rw [guardedWrite_idle _ _ hb] at h; exact .inr (.inr (.inr (.inr (.inl ⟨rfl, rfl, h.symm⟩)))))

/-- The state a write that is no bus error finds: the move taken off the schedule and answered without error. -/
def writeServed (s : State) : State := respond (.write false) (afterMove s)

/-- Everything a step from `s` can lead to, with what the step then was. -/
inductive StepEffect (s : State) : State → Prop
  /-- A read, or a write that is a bus error: only the bus response. -/
  | answered (x : Option Response) (hr : s.rstN = true) : StepEffect s { s with schedule := s.schedule.tail, resp := x }
  /-- The engine's turn with no command in flight. -/
  | engineIdle (h : s.seq = .idle) (hm : engineMoves s) : StepEffect s (afterMove s)
  /-- The commit of `op`. -/
  | commit (op : Instr) (h : commits op s) : StepEffect s (finish (resultsOf op (afterMove s)))
  /-- Reset is asserted. -/
  | reset (h : resetMoves s) : StepEffect s (resetEngine (afterMove s))
  /-- Reset is released. -/
  | release (h : s.schedule.head? = some .resetRelease) : StepEffect s { s with schedule := s.schedule.tail, rstN := true }
  /-- A write of STATUS. -/
  | statusWrite (w : Word) (h : hostWrites s .status w) (hr : s.rstN = true) : StepEffect s (statusW1c w (writeServed s))
  /-- A write of IRQ_EN. -/
  | irqEnWrite (w : Word) (h : hostWrites s .irqEn w) (hr : s.rstN = true) : StepEffect s (writeIrqEn w (writeServed s))
  /-- A write of CMD or of a guarded register while busy. -/
  | rejected (h : busy s = true) (hr : s.rstN = true) : StepEffect s (rejectBusy (writeServed s))
  /-- A write of a guarded register while idle. -/
  | stored (r : Reg) (w : Word) (hg : guarded r = true) (h : hostWrites s r w) (hi : busy s = false) (hr : s.rstN = true) :
      StepEffect s (storeReg r w (writeServed s))
  /-- A write of an illegal word to CMD while idle. -/
  | illegal (w : Word) (h : hostWrites s .cmd w) (hi : s.seq = .idle) (hr : s.rstN = true) :
      StepEffect s (rejectIllegal w (writeServed s))
  /-- A write of a command to CMD while idle: accepted, or NO_KEY. -/
  | requested (i : Instr) (h : hostWrites s .cmd (encode i)) (hi : s.seq = .idle) (hr : s.rstN = true) :
      StepEffect s (accept i (writeServed s))

/-- The inversion of `step`: a next state is one of the eleven. -/
theorem step_effect {s t : State} (h : step s = .next t) : StepEffect s t := by
  rcases step_cases h with ⟨tr, hm, hr, h'⟩ | ⟨hm, h'⟩ | ⟨hm, rfl⟩ | ⟨hm, rfl⟩
  · cases tr with
    | read off be =>
      rw [serve_read] at h'
      cases h'
      exact .answered _ hr
    | write off be w =>
      rcases write_cases off be w with he | ⟨r, hro, hw⟩
      · rw [serve_write_error he] at h'
        cases h'
        exact .answered _ hr
      · rw [hw] at hm h'
        rw [serve_wr hro] at h'
        rcases writeReg_cases h' with ⟨rfl, hc⟩ | ⟨rfl, rfl⟩ | ⟨rfl, rfl⟩ | ⟨hg, hb, rfl⟩ | ⟨hg, hb, rfl⟩ | ⟨ho, rfl⟩
        · rcases commandRequest_cases w (writeServed s) with ⟨hb, e⟩ | ⟨hi, -, e⟩ | ⟨hi, i, rfl, e⟩ <;>
            cases e.symm.trans hc
          · exact .rejected hb hr
          · exact .illegal w hm hi hr
          · exact .requested i hm hi hr
        · exact .statusWrite w hm hr
        · exact .irqEnWrite w hm hr
        · exact .rejected hb hr
        · exact .stored r w hg hm hb hr
        · simp [ho] at hro
  · unfold engineTurn at h'
    split at h'
    · rename_i hi
      cases h'
      exact .engineIdle hi hm
    · rename_i op hop
      rw [exec_commit op hop] at h'
      cases h'
      exact .commit op ⟨hop, hm⟩
  · exact .reset hm
  · exact .release hm

/-! ### Steps of a schedule written out -/

theorem step_scheduled_host (s : State) (tr : Transfer) (es : List Event) (hr : s.rstN = true) :
    step { s with schedule := .host tr :: es } = serve tr { s with schedule := es } := by
  rw [step_host (s := { s with schedule := .host tr :: es }) (tr := tr) rfl hr]
  rfl

theorem step_scheduled_engine (s : State) {op : Instr} (es : List Event) (hs : s.seq = .busy op) :
    step { s with schedule := .engine :: es } = .next (finish (resultsOf op { s with schedule := es })) := by
  rw [step_engine (.inr rfl)]
  change engineTurn { s with schedule := es } = _
  have : engineTurn { s with schedule := es } = exec op { s with schedule := es } := by simp [engineTurn, hs]
  rw [this]
  exact exec_commit op (s := { s with schedule := es }) hs

/-- The request of a command that is accepted, as a step. -/
theorem step_scheduled_issue (s : State) (i : Instr) (es : List Event) (hr : s.rstN = true) (hs : s.seq = .idle)
    (hk : needsKey i = false ∨ keyv s = true) :
    step { s with schedule := .host (issue i) :: es }
      = .next (enterBusy i (latchCommand (encode i) (respond (.write false) { s with schedule := es }))) := by
  rw [step_scheduled_host s _ es hr, issue, serve_wr rfl]
  change commandRequest (encode i) (respond (.write false) { s with schedule := es }) = _
  rw [commandRequest_legal (decode_encode i) (s := respond (.write false) { s with schedule := es }) hs,
    exec_idle i (s := respond (.write false) { s with schedule := es }) hs]
  rcases hk with hk | hk
  · rw [accept_keyless hk]
  · rw [accept_keyed i (s := respond (.write false) { s with schedule := es }) hk]

/-! ### A command waited to its commit -/

/-- The state in which an accepted command leaves the engine, from an idle one. -/
def committed (i : Instr) (s : State) : State := finish (resultsOf i (enterBusy i (latchCommand (encode i) s)))

/-- The state after the `WAIT` of an accepted command: committed, and the last STATUS read answered. -/
def waited (i : Instr) (s : State) : State := respond (.read (statusWord (committed i s)) false) (committed i s)

/-- No result reads the bus response or the schedule, and none writes them. -/
theorem resultsOf_port (i : Instr) (x : Option Response) (es : List Event) (s : State) :
    resultsOf i { s with resp := x, schedule := es } = { resultsOf i s with resp := x, schedule := es } := by
  cases i <;> rfl

@[simp] theorem waited_rstN (i : Instr) (s : State) : (waited i s).rstN = s.rstN := by cases i <;> rfl
@[simp] theorem waited_seq (i : Instr) (s : State) : (waited i s).seq = .idle := rfl
@[simp] theorem waited_done (i : Instr) (s : State) : (waited i s).done = true := rfl
@[simp] theorem waited_err (i : Instr) (s : State) : (waited i s).err = false := by cases i <;> rfl
@[simp] theorem waited_errcode (i : Instr) (s : State) : (waited i s).errcode = .noError := by cases i <;> rfl
@[simp] theorem waited_busywr (i : Instr) (s : State) : (waited i s).busywr = s.busywr := by cases i <;> rfl
theorem waited_key {i : Instr} (h : i ≠ .zeroize) (s : State) : (waited i s).key = s.key := by
  cases i <;> first | rfl | exact absurd rfl h
theorem waited_keywr {i : Instr} (h : i ≠ .zeroize) (s : State) : (waited i s).keywr = s.keywr := by
  cases i <;> first | rfl | exact absurd rfl h

/-- STATUS after the `WAIT` of a command that keeps the key: DONE, BUSYWR as it was, and the key's bits. -/
theorem statusWord_waited {i : Instr} (h : i ≠ .zeroize) (s : State) :
    statusWord (waited i s)
      = statusWord { s with seq := .idle, done := true, err := false, errcode := .noError } := by
  simp only [statusWord, keyv, busy, waited_seq, waited_done, waited_err, waited_errcode, waited_busywr, waited_keywr h]

/-- Polling STATUS while a command is in flight changes only the bus response. -/
theorem runsTo_waitMoves (n : Nat) (es : List Event) {s t : State} (hr : s.rstN = true)
    (h : ∀ x, RunsTo { s with resp := x } (.engine :: .host (rd .status) :: es) t) : RunsTo s (waitMoves n ++ es) t := by
  induction n generalizing s with
  | zero => exact h s.resp
  | succ n ih =>
    refine runsTo_cons ((step_scheduled_host s (rd .status) (waitMoves n ++ es) hr).trans (serve_rd _ _)) ?_
    exact ih hr fun x => h x

/-- An accepted command waited to its commit leads to `waited`, however many polls see it busy. -/
theorem runsTo_issueAndWait {s t : State} (i : Instr) (n : Nat) (es : List Event) (hr : s.rstN = true) (hs : s.seq = .idle)
    (hk : needsKey i = false ∨ keyv s = true) (h : RunsTo (waited i s) es t) : RunsTo s (issueAndWait i n ++ es) t := by
  refine runsTo_cons (step_scheduled_issue s i (waitMoves n ++ es) hr hs hk) ?_
  refine runsTo_waitMoves n es hr fun x => ?_
  refine runsTo_cons (step_scheduled_engine _ (.host (rd .status) :: es) rfl) ?_
  let v := enterBusy i (latchCommand (encode i) s)
  have hv : resultsOf i { v with resp := x, schedule := .host (rd .status) :: es }
      = { resultsOf i v with resp := x, schedule := .host (rd .status) :: es } := resultsOf_port i x _ v
  have hstep := (step_scheduled_host (finish { resultsOf i v with resp := x }) (rd .status) es (by simpa [v] using hr)).trans
    (serve_rd _ _)
  refine runsTo_cons (u := { waited i s with schedule := es }) ?_ h
  change step { finish (resultsOf i { v with resp := x, schedule := .host (rd .status) :: es }) with
    schedule := .host (rd .status) :: es } = _
  rw [hv]
  exact hstep

end Sys2Proof.Machine
end

