-- ==== Sys2Proof/Tests/Slice0.lean ====
section
/-! SUPPORT. The model's own tests. Expected values come from 95_test_vectors (each test names its vector) or from the rule named. -/

namespace Sys2Proof.Tests

open Sys2Proof Sys2Proof.Machine

/-! ### Small states -/

/-- `s` with these moves to come. -/
def withMoves (es : List Event) (s : State) : State := { s with schedule := es }

/-- `s` with this command in flight. -/
def inFlight (op : Instr) (s : State) : State := { s with seq := .busy op, cmd := encode op, done := false }

/-- KEY20 (95_test_vectors): "12345678901234567890", zero-padded. -/
def key20 : Vector Word 8 :=
  #v[0x31323334, 0x35363738, 0x39303132, 0x33343536, 0x37383930, 0, 0, 0]

/-- Idle after reset, a key loaded. -/
def keyed : State := { State.reset with key := key20, keywr := 0xFF }

/-- The digest of V-L1-1 in DIGEST. -/
def digest59 : Vector Word 5 := #v[0x75A48A19, 0xD4CBE100, 0x644E8AC1, 0x397EEA74, 0x7A2D33AB]

/-- The state a next outcome holds; reset otherwise (never used on a refusal below). -/
def after (o : Host.Outcome State Fault Refusal) : State :=
  match o with
  | .next t => t
  | .fault _ => State.reset
  | .refused _ => State.reset

/-! ### WellFormed: each check refuses an ill-formed term -/

/-- RSVD != 0 (30_encoding R104). -/
theorem test_wf_refuses_reserved_bits : rsvdClear 0x00000105 = false ∧ commandWordWf 0x00000105 = false := by decide

/-- OP 0x06 and 0x10, just outside the assigned values, and 0x0E, just below ZEROIZE (30_encoding R102). -/
theorem test_wf_refuses_unassigned_op :
    opAssigned 0x06 = false ∧ opAssigned 0x0E = false ∧ opAssigned 0x10 = false ∧ commandWordWf 0x06 = false := by decide

/-- 20_memory R78. -/
theorem test_wf_refuses_misaligned : (Transfer.read 0x05 0xF).wf = false ∧ (Transfer.write 0x06 0xF 0).wf = false := by decide

/-- 20_memory R79. -/
theorem test_wf_refuses_partial : (Transfer.read 0x04 0x3).wf = false ∧ (Transfer.write 0x04 0xE 0).wf = false := by decide

theorem test_wf_accepts : commandWordWf 0x0000000F = true ∧ (wr .cmd 0).wf = true ∧ Instr.wf .totp = true := by decide

/-! ### Decoding: words written out from 30_encoding R101 and R102 -/

theorem test_decode_nop : decode 0b00000000000000000000000000000000 = .ok .nop := by decide
theorem test_decode_tstep : decode 0b00000000000000000000000000000001 = .ok .tstep := by decide
theorem test_decode_hmac : decode 0b00000000000000000000000000000010 = .ok .hmac := by decide
theorem test_decode_dtrunc : decode 0b00000000000000000000000000000011 = .ok .dtrunc := by decide
theorem test_decode_fmt6 : decode 0b00000000000000000000000000000100 = .ok .fmt6 := by decide
theorem test_decode_totp : decode 0b00000000000000000000000000000101 = .ok .totp := by decide
theorem test_decode_zeroize : decode 0b00000000000000000000000000001111 = .ok .zeroize := by decide
theorem test_decode_rejects :
    decode 0b00000000000000000000000000000110 = .error .unassignedOp ∧
      decode 0b00000000000000000000000100000101 = .error .reservedBits ∧
      decode 0b10000000000000000000000000000000 = .error .reservedBits := by decide
theorem test_decode_table_word :
    decodeTableWord 32 5 = some .totp ∧ decodeTableWord 8 5 = some .totp ∧ decodeTableWord 32 0x105 = none := by decide

/-! ### The commands, one step each -/

/-- 43_control R235: NOP clears an old error at acceptance. -/
theorem test_nop_clears_error :
    (after (exec .nop { State.reset with err := true, errcode := .noKey })).errcode = .noError := by decide

/-- 43_control R235: DONE at commit. -/
theorem test_nop_commit : statusWord (after (exec .nop (inFlight .nop keyed))) = 0x0001FF02 := by decide

/-- V-T-1: the largest time. -/
theorem test_tstep_largest_time :
    ctrVal (after (exec .tstep (inFlight .tstep { State.reset with timeHi := 0xFFFFFFFF, timeLo := 0xFFFFFFFF })))
      = 0x0888888888888888 := by decide

/-- V-T-1: the carry into TIME_HI. -/
theorem test_tstep_both_halves :
    ctrVal (after (exec .tstep (inFlight .tstep { State.reset with timeHi := 0x00000001 }))) = 0x0000000008888888 := by decide

/-- V-H-7: KEY20, counter 1. -/
theorem test_hmac_counter_one :
    (after (exec .hmac (inFlight .hmac { keyed with ctrLo := 1 }))).digest = digest59 := by decide +kernel

/-- V-H-8: no key. -/
theorem test_hmac_no_key :
    let t := after (exec .hmac State.reset)
    statusWord t = 0x00000026 ∧ t.cmd = 2 ∧ t.digest = Vector.replicate 5 0 := by decide

/-- V-D-1: offset 15, only bit 31 cleared. -/
theorem test_dtrunc_offset_fifteen :
    let t := after (exec .dtrunc (inFlight .dtrunc { State.reset with digest := #v[0, 0, 0, 0x00000080, 0x0000010F] }))
    t.offset = 15 ∧ t.trunc = 1 := by decide

/-- V-D-1, V-L1-1: an offset across two words, and the mask. -/
theorem test_dtrunc_mask :
    let t := after (exec .dtrunc (inFlight .dtrunc { State.reset with digest := digest59 }))
    t.offset = 11 ∧ t.trunc = 0x41397EEA := by decide

/-- V-L1-2: a leading zero is kept. -/
theorem test_fmt6_leading_zero :
    let t := after (exec .fmt6 (inFlight .fmt6 { State.reset with trunc := 0x3610F84C }))
    t.code = 0x00013F8C ∧ t.codeBcd = 0x00081804 ∧ t.codeAsc0 = 0x30383138 ∧ t.codeAsc1 = 0x30340000 := by decide

/-- V-D-1: reduction wraps to zero. -/
theorem test_fmt6_wraps :
    codeStr (after (exec .fmt6 (inFlight .fmt6 { State.reset with trunc := 0x000F4240 }))) =
      [0x30, 0x30, 0x30, 0x30, 0x30, 0x30] := by decide

/-- V-L1-1: the source's known answer. -/
theorem test_totp_known_answer :
    let t := after (exec .totp (inFlight .totp { keyed with timeLo := 59 }))
    t.ctrLo = 1 ∧ t.digest = digest59 ∧ t.offset = 11 ∧ t.trunc = 0x41397EEA ∧ t.code = 0x0004616A ∧
      t.codeBcd = 0x00287082 ∧ t.codeAsc0 = 0x32383730 ∧ t.codeAsc1 = 0x38320000 ∧ statusWord t = 0x0001FF02 := by
  decide +kernel

/-- V-X-7: a partial key. -/
theorem test_totp_partial_key : statusWord (after (exec .totp { State.reset with keywr := 0xE0 })) = 0x0000E026 := by decide

/-- 43_control R241: its example. -/
theorem test_zeroize_example :
    let t := after (exec .zeroize (inFlight .zeroize { keyed with timeLo := 59, ctrLo := 1, digest := digest59, code := 287082 }))
    statusWord t = 0x00000002 ∧ t.key = Vector.replicate 8 0 ∧ t.digest = Vector.replicate 5 0 ∧ t.ctrLo = 0 ∧ t.code = 0 ∧
      t.timeLo = 0x0000003B := by decide

/-! ### Transfers, errors and the interrupt -/

/-- P3 lines 4 and 5: a reserved offset reads 0 with an error; a read-only write is an error and changes nothing. -/
theorem test_bus_errors :
    (after (step (withMoves [.host (rdAt 0x6C)] State.reset))).resp = some (.read 0 true) ∧
      step (withMoves [.host (wrAt 0x54 0x12345678)] State.reset)
        = .next { State.reset with resp := some (.write true) } :=
  ⟨by decide, rfl⟩

/-- 20_memory R72: KEY reads 0 without error. -/
theorem test_key_reads_zero : (after (step (withMoves [.host (rd (.key 0))] keyed))).resp = some (.read 0 false) := by decide

/-- P3 line 3: an illegal word replaces the old ERRCODE. -/
theorem test_illegal_word :
    statusWord (after (step (withMoves [.host (wr .cmd 0x00000105)] { State.reset with err := true, errcode := .noKey })))
      = 0x00000016 := by decide

/-- P3 line 18: a TIME write while busy is lost and sets BUSYWR. -/
theorem test_busy_write_lost :
    let t := after (step (withMoves [.host (wr .timeLo 0x1E)] (inFlight .totp keyed)))
    statusWord t = 0x0001FF09 ∧ t.timeLo = 0 := by decide

/-- P3 lines 23 and 24: W1C of one flag, then of all. -/
theorem test_w1c :
    let s : State := { keyed with done := true, busywr := true, doneIe := true, errIe := true }
    let t := after (step (withMoves [.host (wr .status 0x00000008)] s))
    statusWord t = 0x0001FF02 ∧ irq t = true ∧
      statusWord (after (step (withMoves [.host clrst] t))) = 0x0001FF00 := by decide

/-- 70_reset_and_hazards R302: no step for a transfer in reset. -/
theorem test_transfer_in_reset :
    step (withMoves [.host (rd .status)] { State.reset with rstN := false }) = .refused .transferDuringReset := rfl

/-- 70_reset_and_hazards R300, 60_exceptions R266: reset discards the command in flight, and the coinciding transfer is lost. -/
theorem test_reset_wins :
    let t := after (step (withMoves [.resetAssert (some (wr .timeLo 7))] (inFlight .totp keyed)))
    statusWord t = 0 ∧ t.key = Vector.replicate 8 0 ∧ t.timeLo = 0 ∧ t.resp = none := by decide

/-! ### Witnesses: the hypotheses of each statement can be met -/

theorem witness_DecodeIsTheOpcodeMap :
    keyed.seq = .idle ∧ decode 0x00000105 = .error .reservedBits ∧ decode 0x00000010 = .error .unassignedOp := by decide

theorem witness_StepRunsTheDecodedCommand :
    let s := withMoves [.host (wr .cmd 0x00000005)] State.reset
    s.rstN = true ∧ s.seq = .idle ∧ hostWrites s .cmd 0x00000005 ∧ decode 0x00000005 = .ok .totp :=
  ⟨rfl, rfl, rfl, rfl⟩

theorem witness_EngineMoveRunsTheCommandInFlight :
    (engineMoves (inFlight .nop keyed) ∧ (inFlight .nop keyed).seq = .busy .nop) ∧
      (engineMoves (withMoves [.engine] keyed) ∧ (withMoves [.engine] keyed).seq = .idle) :=
  ⟨⟨.inl rfl, rfl⟩, .inr rfl, rfl⟩

theorem witness_FetchedWordRunsNext : decodeTableWord 32 0x0000000F = some .zeroize := rfl

/-- The three clauses on ERRCODE (60_exceptions R261). -/
theorem witness_StatusWordFields :
    State.reset.errcode = .noError ∧ (cmdError .illegalCmd State.reset).errcode = .illegalCmd ∧
      (cmdError .noKey State.reset).errcode = .noKey := by decide

theorem witness_OnlyTransfersDuringResetHaveNoStep_refused :
    let s := withMoves [.host (rd .status)] { State.reset with rstN := false }
    s.rstN = false ∧ ∃ t, hostMoves s t :=
  ⟨rfl, _, rfl⟩

theorem witness_OnlyTransfersDuringResetHaveNoStep_next :
    let s := withMoves [.engine] { State.reset with rstN := false }
    ¬ (s.rstN = false ∧ ∃ t, hostMoves s t) := by
  simp [withMoves, hostMoves]

/-- The request clauses of the seven commands: idle, with a key, and without one. -/
theorem witness_Commands_requested :
    (keyed.seq = .idle ∧ keyv keyed = true) ∧ (State.reset.seq = .idle ∧ keyv State.reset = false) := by decide

/-- The commit clauses of the seven commands. -/
theorem witness_Commands_commit (op : Instr) : (inFlight op keyed).seq = .busy op := rfl

/-- RejectedWhileBusy, of each command, with another in flight. -/
theorem witness_Commands_rejected (op : Instr) :
    let s := withMoves [.host (issue op)] (inFlight .totp keyed)
    s.seq = .busy .totp ∧ s.rstN = true ∧ hostMoves s (issue op) :=
  ⟨rfl, rfl, rfl⟩

theorem witness_NopCommand : (inFlight .nop State.reset).seq = .busy .nop := rfl
theorem witness_TstepCommand : (inFlight .tstep State.reset).seq = .busy .tstep := rfl
theorem witness_HmacCommand : (inFlight .hmac keyed).seq = .busy .hmac := rfl
theorem witness_DtruncCommand : (inFlight .dtrunc State.reset).seq = .busy .dtrunc := rfl
theorem witness_Fmt6Command : (inFlight .fmt6 State.reset).seq = .busy .fmt6 := rfl
theorem witness_TotpCommand : (inFlight .totp keyed).seq = .busy .totp := rfl
theorem witness_ZeroizeCommand : (inFlight .zeroize keyed).seq = .busy .zeroize := rfl

/-- CommandFrame: requested while idle, committed, and rejected. -/
theorem witness_CommandFrame :
    (∃ t, exec .tstep State.reset = .next t) ∧ (∃ t, exec .tstep (inFlight .tstep State.reset) = .next t) ∧
      ∃ t, exec .tstep (inFlight .totp keyed) = .next t :=
  ⟨⟨_, rfl⟩, ⟨_, rfl⟩, _, rfl⟩

/-- The four clauses of the read statement, at the edges of their ranges. -/
theorem witness_ReadsReturnRegistersAndChangeNothing :
    (let s := withMoves [.host (rdAt 0x6B)] keyed
     s.rstN = true ∧ hostMoves s (.read 0x6B 0xF) ∧ (0x6B : BitVec 8).toNat % 4 ≠ 0) ∧
    (let s := withMoves [.host (.read 0x68 0x7)] keyed
     s.rstN = true ∧ hostMoves s (.read 0x68 0x7) ∧ (0x7 : BitVec 4) ≠ 0xF) ∧
    (let s := withMoves [.host (rdAt 0x6C)] keyed
     s.rstN = true ∧ hostMoves s (.read 0x6C 0xF) ∧ (0x6C : BitVec 8).toNat % 4 = 0 ∧ 0x6C ≤ (0x6C : BitVec 8).toNat) ∧
    (let s := withMoves [.host (rdAt 0x3C)] keyed
     s.rstN = true ∧ hostMoves s (.read 0x3C 0xF) ∧ (0x3C : BitVec 8).toNat % 4 = 0 ∧ (0x3C : BitVec 8).toNat ≤ 0x3C) ∧
    (let s := withMoves [.host (rdAt 0x68)] keyed
     s.rstN = true ∧ hostMoves s (.read 0x68 0xF) ∧ (0x68 : BitVec 8) = regOffset .codeAsc1 ∧ ∀ i, Reg.codeAsc1 ≠ .key i) :=
  ⟨⟨rfl, rfl, by decide⟩, ⟨rfl, rfl, by decide⟩, ⟨rfl, rfl, by decide, by decide⟩, ⟨rfl, rfl, by decide, by decide⟩,
    rfl, rfl, rfl, by simp⟩

/-- A write error while busy, one while idle, and a read error. -/
theorem witness_BusErrorsChangeNothing :
    (let s := withMoves [.host (wrAt 0x00 1)] (inFlight .nop keyed)
     s.rstN = true ∧ hostMoves s (.write 0x00 0xF 1) ∧ busWriteErr 0x00 0xF = true) ∧
    (let s := withMoves [.host (wrAt 0xFC 1)] keyed
     s.rstN = true ∧ hostMoves s (.write 0xFC 0xF 1) ∧ busWriteErr 0xFC 0xF = true) ∧
    (let s := withMoves [.host (rdAt 0xFC)] (inFlight .nop keyed)
     s.rstN = true ∧ hostMoves s (.read 0xFC 0xF) ∧ (busRead 0xFC 0xF s).2 = true) :=
  ⟨⟨rfl, rfl, by decide⟩, ⟨rfl, rfl, by decide⟩, rfl, rfl, by decide⟩

theorem witness_BusyWritesOnlySetBusywr :
    (let s := withMoves [.host (wr .cmd 0x105)] (inFlight .totp keyed)
     s.rstN = true ∧ busy s = true ∧ hostWrites s .cmd 0x105) ∧
    (let s := withMoves [.host (wr (.key 7) 1)] (inFlight .totp keyed)
     s.rstN = true ∧ busy s = true ∧ hostWrites s (.key 7) 1) ∧
    (let s := withMoves [.host (wr (.digest 4) 1)] (inFlight .totp keyed)
     s.rstN = true ∧ busy s = true ∧ hostWrites s (.digest 4) 1) :=
  ⟨⟨rfl, rfl, rfl⟩, ⟨rfl, rfl, rfl⟩, rfl, rfl, rfl⟩

theorem witness_IdleDataWritesSetOneWord :
    (let s := withMoves [.host (wr .timeLo 59)] keyed
     s.rstN = true ∧ busy s = false ∧ hostWrites s .timeLo 59) ∧
    (let s := withMoves [.host (wr .timeHi 59)] keyed
     s.rstN = true ∧ busy s = false ∧ hostWrites s .timeHi 59) ∧
    (let s := withMoves [.host (wr (.digest 4) 59)] keyed
     s.rstN = true ∧ busy s = false ∧ hostWrites s (.digest 4) 59) :=
  ⟨⟨rfl, rfl, rfl⟩, ⟨rfl, rfl, rfl⟩, rfl, rfl, rfl⟩

theorem witness_IdleKeyWriteSetsWordAndKeywr :
    let s := withMoves [.host (wr (.key 7) 1)] State.reset
    s.rstN = true ∧ busy s = false ∧ hostWrites s (.key 7) 1 :=
  ⟨rfl, rfl, rfl⟩

theorem witness_StatusWriteClearsFlags :
    let s := withMoves [.host (wr .status 0x0000000A)] { keyed with done := true, err := true, errcode := .noKey, busywr := true }
    s.rstN = true ∧ hostWrites s .status 0x0000000A ∧ (0x0000000A : Word).getLsbD 1 = true ∧
      (0x0000000A : Word).getLsbD 2 = false ∧ (0x0000000A : Word).getLsbD 3 = true :=
  ⟨rfl, rfl, rfl, rfl, rfl⟩

theorem witness_IrqEnWriteSetsEnables :
    let s := withMoves [.host (wr .irqEn 0xFFFFFFFE)] (inFlight .nop keyed)
    s.rstN = true ∧ hostWrites s .irqEn 0xFFFFFFFE :=
  ⟨rfl, rfl⟩

/-- 0x06 is the first unassigned OP and 0xFF the last; 0x105 has TOTP's OP under a reserved bit. -/
theorem witness_IllegalWordRaisesIllegalCmd :
    (let s := withMoves [.host (wr .cmd 0x00000006)] State.reset
     s.rstN = true ∧ busy s = false ∧ hostWrites s .cmd 0x00000006 ∧ 0x06 ≤ (0x00000006 : Word).toNat ∧ (0x00000006 : Word).toNat ≤ 0x0E) ∧
    (let s := withMoves [.host (wr .cmd 0x00000105)] keyed
     s.rstN = true ∧ busy s = false ∧ hostWrites s .cmd 0x00000105 ∧ (0x00000105 : Word).toNat / 2 ^ 8 ≠ 0) ∧
    (let s := withMoves [.host (wr .cmd 0x000000FF)] keyed
     s.rstN = true ∧ busy s = false ∧ hostWrites s .cmd 0x000000FF ∧ 0x10 ≤ (0x000000FF : Word).toNat ∧ (0x000000FF : Word).toNat ≤ 0xFF) :=
  ⟨⟨rfl, rfl, rfl, by decide, by decide⟩, ⟨rfl, rfl, rfl, by decide⟩, rfl, rfl, rfl, by decide, by decide⟩

theorem witness_TimeHalvesInEitherOrder : keyed.rstN = true ∧ busy keyed = false := by decide

theorem witness_ResetFromAnyState :
    (withMoves [.resetAssert (some (rd .id))] (inFlight .totp keyed)).schedule.head? = some (.resetAssert (some (rd .id))) ∧
      (withMoves [.resetRelease] (resetEngine keyed)).schedule.head? = some .resetRelease :=
  ⟨rfl, rfl⟩

/-- The state P1 ends in, with a ZEROIZE requested next: no reset state, the code registers formatted. -/
def afterTotp : State :=
  { keyed with
    cmd := 5, done := true, timeLo := 59, ctrLo := 1, digest := digest59, offset := 11, trunc := 0x41397EEA
    code := 0x0004616A, codeBcd := 0x00287082, codeAsc0 := 0x32383730, codeAsc1 := 0x38320000
    schedule := [.host (issue .zeroize)] }

theorem afterTotp_formatted : CodeFormatted afterTotp := by
  refine ⟨by decide, ?_, by decide, ?_, by decide, by decide⟩ <;>
    (intro k hk; match k, hk with
      | 0, _ | 1, _ | 2, _ | 3, _ | 4, _ | 5, _ => decide)

theorem witness_EveryStepKeepsTheInvariant : afterTotp.Inv ∧ ∃ t, step afterTotp = .next t ∧ busy t = true :=
  ⟨{ busyFlags := by decide
     busyCmd := by intro op h; cases h
     busyKey := by intro op h; cases h
     errCode := by decide
     hiddenIdle := fun _ => rfl
     truncTop := by decide
     offsetSmall := by decide
     codeShape := .inr afterTotp_formatted
     resetHeld := by intro h; cases h },
    _, rfl, rfl⟩

/-- A step that changes a register, for each clause: a host write of KEY, DIGEST, TIME, IRQ_EN and CMD, and the commit of TOTP. -/
theorem witness_OnlyNamedAgentsWriteRegisters :
    (∃ t, step (withMoves [.host (wr (.key 7) 1)] keyed) = .next t ∧ t.key ≠ keyed.key) ∧
    (∃ t, step (withMoves [.host (wr (.digest 4) 1)] keyed) = .next t ∧ t.digest ≠ keyed.digest) ∧
    (∃ t, step (withMoves [.host (wr .timeLo 1)] keyed) = .next t ∧ t.timeLo ≠ keyed.timeLo) ∧
    (∃ t, step (withMoves [.host (wr .timeHi 1)] keyed) = .next t ∧ t.timeHi ≠ keyed.timeHi) ∧
    (∃ t, step (withMoves [.host (wr .irqEn 2)] keyed) = .next t ∧ t.errIe ≠ keyed.errIe) ∧
    (∃ t, step (withMoves [.host (issue .nop)] { keyed with cmd := 5 }) = .next t ∧ t.cmd ≠ (5 : Word)) ∧
    (∃ t, step (withMoves [.engine] (inFlight .tstep { keyed with timeLo := 30 })) = .next t ∧ t.ctrLo ≠ keyed.ctrLo) ∧
    (∃ t, step (withMoves [.engine] (inFlight .dtrunc { keyed with digest := digest59 })) = .next t ∧ t.trunc ≠ keyed.trunc) ∧
    (∃ t, step (withMoves [.engine] (inFlight .fmt6 keyed)) = .next t ∧ t.codeAsc0 ≠ keyed.codeAsc0) ∧
    ¬ resetMoves (withMoves [.engine] (inFlight .fmt6 keyed)) ∧ ¬ resetMoves (withMoves [.host (issue .nop)] keyed) :=
  ⟨⟨_, rfl, by decide⟩, ⟨_, rfl, by decide⟩, ⟨_, rfl, by decide⟩, ⟨_, rfl, by decide⟩, ⟨_, rfl, by decide⟩,
    ⟨_, rfl, by decide⟩, ⟨_, rfl, by decide⟩, ⟨_, rfl, by decide⟩, ⟨_, rfl, by decide⟩,
    by simp [resetMoves, withMoves], by simp [resetMoves, withMoves]⟩

theorem witness_KeywrClearedOnlyByZeroizeOrReset :
    (∃ t, step (withMoves [.engine] (inFlight .zeroize keyed)) = .next t ∧
      keyed.keywr.getLsbD 7 = true ∧ t.keywr.getLsbD 7 = false) ∧
    (∃ t, step (withMoves [.host (wr (.key 7) 0)] State.reset) = .next t ∧
      State.reset.keywr.getLsbD 7 = false ∧ t.keywr.getLsbD 7 = true) ∧
    ¬ resetMoves (withMoves [.engine] (inFlight .zeroize keyed)) ∧ ¬ resetMoves (withMoves [.host (wr (.key 7) 0)] State.reset) :=
  ⟨⟨_, rfl, by decide, by decide⟩, ⟨_, rfl, by decide, by decide⟩, by simp [resetMoves, withMoves],
    by simp [resetMoves, withMoves]⟩

theorem witness_BusywrIsSticky :
    (let s := withMoves [.host (wr (.key 0) 1)] (inFlight .nop keyed)
     s.rstN = true ∧ busy s = true ∧ hostWrites s (.key 0) 1 ∧ guarded (.key 0) = true) ∧
    (∃ t, step (withMoves [.host (issue .nop)] (inFlight .nop keyed)) = .next t ∧ keyed.busywr = false ∧ t.busywr = true) ∧
    (∃ t, step (withMoves [.host (wr .status 8)] { keyed with busywr := true }) = .next t ∧ t.busywr = false) ∧
      ∃ t, step (withMoves [.resetAssert none] { keyed with busywr := true }) = .next t ∧ t.busywr = false :=
  ⟨⟨rfl, rfl, rfl, rfl⟩, ⟨_, rfl, rfl, rfl⟩, ⟨_, rfl, rfl⟩, _, rfl, rfl⟩

/-- V-L1-3, and the last time the statement covers. -/
theorem witness_WindowBoundaries :
    (29 : DWord).toNat < 2 ^ 64 - 1 ∧ (0xFFFFFFFFFFFFFFFE : DWord).toNat < 2 ^ 64 - 1 := by decide

/-- V-L1-4: the times 30 and 59. -/
theorem witness_WindowDeterminism :
    let s : State := { keyed with timeLo := 30 }
    let u : State := { keyed with timeLo := 59 }
    (timeVal (inFlight .totp s)).toNat / 30 = (timeVal (inFlight .totp u)).toNat / 30 ∧
      (timeVal (inFlight .tstep s)).toNat / 30 = (timeVal (inFlight .tstep u)).toNat / 30 ∧ s.key = u.key := by decide

theorem witness_EngineHmacIsHmacSha1 : (bytesOfWords key20.toList).length = 32 := by decide

/-- A 20-byte key (V-L1-1), the empty key and a full one. -/
theorem witness_ZeroPaddedKeysAgree :
    ((bytesOfWords key20.toList).take 20).length ≤ 32 ∧ ([] : List Byte).length ≤ 32 ∧
      (bytesOfWords key20.toList).length ≤ 32 := by decide

theorem witness_TruncationRangeLaws :
    (bytesOfWords digest59.toList).length = 20 ∧
      (0x1B : Byte) &&& 0x0F = (bytesOfWords digest59.toList).getD 19 0 &&& 0x0F := by decide

theorem witness_FormatLawsAfterCommit :
    (∃ t, exec .fmt6 (inFlight .fmt6 State.reset) = .next t) ∧ ∃ t, exec .totp (inFlight .totp keyed) = .next t :=
  ⟨⟨_, rfl⟩, _, rfl⟩

theorem witness_TotpEqualsTheFourSteps : keyed.rstN = true ∧ keyed.seq = .idle ∧ keyv keyed = true := by decide

theorem witness_EntryPointSequenceGivesTheCode : State.reset.rstN = true ∧ State.reset.seq = .idle := by decide

theorem witness_ResultsDependOnlyOnAcceptance :
    (inFlight .totp keyed).rstN = true ∧ (inFlight .totp keyed).seq = .busy .totp := by decide

theorem witness_CommandInFlightCommits :
    let s := withMoves [.host (rd .status)] (inFlight .totp keyed)
    s.rstN = true ∧ s.seq = .busy .totp ∧ ∀ lost, Event.resetAssert lost ∉ s.schedule :=
  ⟨rfl, rfl, by simp [withMoves]⟩

theorem witness_ZeroizeScrubsTheKey :
    let s := inFlight .zeroize keyed
    let u : State := { s with key := Vector.replicate 8 7 }
    commits .zeroize s ∧ u.key ≠ s.key ∧
      u = { s with
        key := u.key, keywr := u.keywr, ctrHi := u.ctrHi, ctrLo := u.ctrLo, digest := u.digest, trunc := u.trunc
        offset := u.offset, code := u.code, codeBcd := u.codeBcd, codeAsc0 := u.codeAsc0, codeAsc1 := u.codeAsc1
        hidden := u.hidden } :=
  ⟨⟨rfl, .inl rfl⟩, by decide, rfl⟩

theorem keyed_commits_nothing (es : List Event) (r : Bool) (op : Instr) : ¬ commits op (withMoves es { keyed with rstN := r }) :=
  fun h => nomatch h.1

theorem witness_KeyReachesNothingButHmac_next :
    let s := withMoves [.host (rd (.key 0))] { keyed with rstN := true }
    ¬ commits .hmac s ∧ ¬ commits .totp s ∧ ∃ t, step s = .next t :=
  ⟨keyed_commits_nothing _ _ _, keyed_commits_nothing _ _ _, _, rfl⟩

theorem witness_KeyReachesNothingButHmac_refused :
    let s := withMoves [.host (rd (.key 0))] { keyed with rstN := false }
    ¬ commits .hmac s ∧ ¬ commits .totp s ∧ step s = .refused .transferDuringReset :=
  ⟨keyed_commits_nothing _ _ _, keyed_commits_nothing _ _ _, rfl⟩

theorem witness_HiddenStateReachesNoRegister :
    (∃ t, step (inFlight .totp keyed) = .next t) ∧
      step (withMoves [.host (rd .status)] { keyed with rstN := false }) = .refused .transferDuringReset :=
  ⟨⟨_, rfl⟩, rfl⟩

end Sys2Proof.Tests
end

section
/-! PROOF. A fetched word (00_scope R3): what the table decoder reads, and the step that serves the word `withFetchWord` places. -/

namespace Sys2Proof.Proofs.Scope

open Sys2Proof Sys2Proof.Machine

/-- The table decoder is the decoder of 30_encoding R104 on the zero-extended word (log entry 16). -/
theorem decodeTableWord_eq_some_iff {nbits w : Nat} {i : Instr} :
    decodeTableWord nbits w = some i ↔ nbits ≤ 32 ∧ decode (BitVec.ofNat 32 (w % 2 ^ nbits)) = .ok i := by
  unfold decodeTableWord
  split
  next hlong => simp [Nat.not_le.2 hlong]
  next hfits => cases decode (BitVec.ofNat 32 (w % 2 ^ nbits)) <;> simp [Nat.not_lt.1 hfits]

/-- The step from `withFetchWord` is the request made by a host write of the word to CMD (43_control R230), whether the word is
legal or not. -/
theorem step_withFetchWord (s : State) (nbits w : Nat) :
    step (s.withFetchWord nbits w) = commandRequest (BitVec.ofNat 32 (w % 2 ^ nbits))
      (respond (.write false) { s with rstN := true, seq := .idle, hidden := Hidden.zero }) :=
  (step_scheduled_host { s with rstN := true, seq := .idle, hidden := Hidden.zero } _ s.schedule rfl).trans
    (serve_wr rfl _ _)

/-- Settles O6: the word placed is served as a CMD write, and the idle engine runs the command it decodes to. -/
theorem fetchedWordRunsNext : Obligations.FetchedWordRunsNext := by
  intro s w i hw
  obtain ⟨-, hd⟩ := decodeTableWord_eq_some_iff.1 hw
  rw [step_withFetchWord, commandRequest_legal hd rfl]
  rfl

end Sys2Proof.Proofs.Scope
end

section
/-! PROOF. Who writes which register (10_state R43): the frame of the commands, and the writers of every register, of KEYWR and of
BUSYWR over every step. -/

namespace Sys2Proof.Proofs.RegisterWriters

open Sys2Proof Sys2Proof.Machine

/-! ### The frame of a command -/

/-- A request leaves alone all but CMD, the flags it clears or sets, and the sequencer (10_state R45). -/
theorem accept_frame (i : Instr) (s : State) :
    accept i s = { s with
      cmd := encode i, done := (accept i s).done, err := (accept i s).err, errcode := (accept i s).errcode
      seq := (accept i s).seq, hidden := (accept i s).hidden, draws := (accept i s).draws } := by
  rcases accept_cases i s with ⟨-, -, h⟩ | ⟨-, h⟩ <;> rw [h] <;> rfl

/-- Settles O15: a request, a commit and a busy rejection each keep what R43 does not let the command write. -/
theorem commandFrame : Obligations.CommandFrame := by
  intro i s t h
  rcases exec_cases h with ⟨hidle, rfl⟩ | ⟨-, rfl⟩ | ⟨current, hcur, hne, rfl⟩
  · have hb : busy s = false := (busy_eq_false_iff s).2 hidle
    rw [accept_frame]
    simp [hb]
  · cases i <;> simp [resultsOf, nopResults, tstepResults, hmacResults, dtruncResults, fmt6Results, totpResults]
  · simp [hcur, hne, busy]

/-! ### Every register -/

/-- When a commit changes what only the commands `ops` may change, it is the commit of one of them. -/
theorem commits_of_changed {op : Instr} {ops : List Instr} {s : State} {Kept : Prop} (h : commits op s)
    (hframe : op ∉ ops → Kept) (hchanged : ¬ Kept) : ∃ o ∈ ops, commits o s :=
  ⟨op, by_contra fun hmem => hchanged (hframe hmem), h⟩

/-- Settles O31: each effect of a step writes the registers of its agent only; for a commit this is `commandFrame`. -/
theorem onlyNamedAgentsWriteRegisters : Obligations.OnlyNamedAgentsWriteRegisters := by
  intro s t hstep hreset
  cases step_effect hstep with
  | answered | engineIdle | release | statusWrite | rejected => simp [writeServed]
  | reset h => exact absurd h hreset
  | irqEnWrite w h => simpa [writeServed] using fun _ => ⟨w, h⟩
  | stored r w hg h hi =>
    cases r with
    | timeLo | timeHi => simpa [storeReg, writeServed] using fun _ => ⟨hi, w, h⟩
    | key i | digest i => simpa [storeReg, writeServed] using fun _ => .inl ⟨hi, i, w, h⟩
    | _ => simp [guarded] at hg
  | illegal w h hi => simpa [rejectIllegal, writeServed] using fun _ => ⟨(busy_eq_false_iff s).2 hi, w, h⟩
  | requested i h hi =>
    rw [accept_frame]
    simpa [writeServed] using fun _ => ⟨(busy_eq_false_iff s).2 hi, encode i, h⟩
  | commit op h =>
    obtain ⟨⟨htimeLo, htimeHi, hdoneIe, herrIe, -⟩, hkey, hctr, hdigest, htrunc, hcode, hbusy, -⟩ :=
      commandFrame op (afterMove s) _ (exec_commit op h.1)
    obtain ⟨hcmd, -, -⟩ := hbusy ((busy_eq_true_iff _).2 ⟨op, h.1⟩)
    refine ⟨fun hc => .inr ?_, fun hc => .inr ?_, fun hc => ?_, fun hc => ?_, fun hc => ?_,
      absurd htimeLo, absurd htimeHi, fun hc => hc.elim (absurd hdoneIe) (absurd herrIe), absurd hcmd⟩
    · obtain rfl : op = .zeroize := by_contra fun hne => hc (hkey hne).1
      exact h
    · simpa using commits_of_changed h hdigest hc
    · simpa using commits_of_changed h hctr fun ⟨hhi, hlo⟩ => hc.elim (· hhi) (· hlo)
    · simpa using commits_of_changed h htrunc fun ⟨htr, hoff⟩ => hc.elim (· htr) (· hoff)
    · simpa using commits_of_changed h hcode fun ⟨hbin, hbcd, hasc0, hasc1⟩ =>
        hc.elim (· hbin) (Or.elim · (· hbcd) (Or.elim · (· hasc0) (· hasc1)))

/-! ### KEYWR -/

/-- KEYWR after a store of KEYi: bit i set, the others as they were (10_state R29). -/
theorem getLsbD_keywr_storeKey (i j : Fin 8) (w : Word) (s : State) :
    (storeReg (.key i) w s).keywr.getLsbD j.val = (s.keywr.getLsbD j.val || decide (j = i)) := by
  simp [storeReg, Fin.ext_iff, eq_comm]

/-- All that a step that is not a reset does to KEYWR. -/
theorem step_keywr {s t : State} (h : step s = .next t) (hreset : ¬ resetMoves s) :
    t.keywr = s.keywr ∨ (commits .zeroize s ∧ t.keywr = 0) ∨
      (busy s = false ∧ ∃ i w, hostWrites s (.key i) w ∧ t.keywr = (storeReg (.key i) w s).keywr) := by
  cases step_effect h with
  | answered | engineIdle | release | statusWrite | irqEnWrite | rejected | illegal => exact .inl rfl
  | requested =>
    rw [accept_frame]
    exact .inl rfl
  | reset hr => exact absurd hr hreset
  | stored r w hg hw hi =>
    cases r with
    | key i => exact .inr (.inr ⟨hi, i, w, hw, rfl⟩)
    | timeLo | timeHi | digest => exact .inl rfl
    | _ => simp [guarded] at hg
  | commit op hop =>
    by_cases hz : op = .zeroize
    · subst hz
      exact .inr (.inl ⟨hop, rfl⟩)
    · obtain ⟨-, hkey, -⟩ := commandFrame op (afterMove s) _ (exec_commit op hop.1)
      exact .inl (hkey hz).2

/-- Settles O32, by what a step can do to KEYWR. -/
theorem keywrClearedOnlyByZeroizeOrReset : Obligations.KeywrClearedOnlyByZeroizeOrReset := by
  intro s t i hstep hreset
  rcases step_keywr hstep hreset with hk | ⟨hz, hk⟩ | ⟨hi, j, w, hw, hk⟩ <;> rw [hk]
  · exact ⟨fun hset hclear => (nomatch hset.symm.trans hclear), fun hclear hset => (nomatch hclear.symm.trans hset)⟩
  · exact ⟨fun _ _ => hz, fun _ hset => by simp at hset⟩
  · rw [getLsbD_keywr_storeKey]
    refine ⟨fun hset hclear => ?_, fun hclear hset => ?_⟩ <;> simp only [hset, hclear, Bool.true_or, Bool.false_or,
      decide_eq_true_eq, reduceCtorEq] at hclear hset
    subst hset
    exact ⟨hi, w, hw⟩

/-! ### BUSYWR -/

/-- Out of reset, a host write of a register that is not read-only does what `writeReg` says (20_memory R73). -/
theorem step_hostWrites {s : State} {r : Reg} {w : Word} (hr : s.rstN = true) (h : hostWrites s r w)
    (hro : readOnly r = false) : step s = writeReg r w (writeServed s) :=
  (step_host h hr).trans (serve_wr hro w (afterMove s))

theorem readOnly_of_guarded {r : Reg} (h : guarded r = true) : readOnly r = false := by
  cases r with
  | timeLo | timeHi | key | digest => rfl
  | _ => simp [guarded] at h

theorem writeReg_guarded {r : Reg} (h : guarded r = true) (w : Word) (s : State) :
    writeReg r w s = .next (guardedWrite r w s) := by
  cases r with
  | timeLo | timeHi | key | digest => rfl
  | _ => simp [guarded] at h

/-- While busy, a write of CMD or of a guarded register is rejected (20_memory R74). -/
theorem writeReg_busy {r : Reg} (h : r = .cmd ∨ guarded r = true) (w : Word) {s : State} (hb : busy s = true) :
    writeReg r w s = .next (rejectBusy s) := by
  rcases h with rfl | hg
  · exact commandRequest_busy w hb
  · rw [writeReg_guarded hg, guardedWrite_busy r w hb]

@[simp] theorem storeReg_busywr (r : Reg) (w : Word) (s : State) : (storeReg r w s).busywr = s.busywr := by
  cases r <;> rfl

@[simp] theorem accept_busywr (i : Instr) (s : State) : (accept i s).busywr = s.busywr := by
  rw [accept_frame]

/-- A register write that sets BUSYWR is a rejected one (10_state R28). -/
theorem rejected_of_writeReg_busywr {r : Reg} {w : Word} {s t : State} (h : writeReg r w s = .next t)
    (hclear : s.busywr = false) (hset : t.busywr = true) : busy s = true ∧ (r = .cmd ∨ guarded r = true) := by
  rcases writeReg_cases h with ⟨rfl, hc⟩ | ⟨-, rfl⟩ | ⟨-, rfl⟩ | ⟨hg, hb, -⟩ | ⟨-, -, rfl⟩ | ⟨-, rfl⟩
  case inl =>
    rcases commandRequest_cases w s with ⟨hb, -⟩ | ⟨-, -, e⟩ | ⟨-, i, -, e⟩
    · exact ⟨hb, .inl rfl⟩
    all_goals
      cases e.symm.trans hc
      simp [rejectIllegal, hclear] at hset
  case inr.inr.inr.inl => exact ⟨hb, .inr hg⟩
  all_goals simp [hclear] at hset

/-- A transfer that sets BUSYWR is a write of CMD or of a guarded register while busy (20_memory R74). -/
theorem rejected_of_serve_busywr {tr : Transfer} {s t : State} (h : serve tr s = .next t) (hclear : s.busywr = false)
    (hset : t.busywr = true) : busy s = true ∧ ∃ r w, tr = wr r w ∧ (r = .cmd ∨ guarded r = true) := by
  cases tr with
  | read off be =>
    cases h
    simp [hclear] at hset
  | write off be w =>
    rcases write_cases off be w with he | ⟨r, hro, hw⟩
    · rw [serve_write_error he] at h
      cases h
      simp [hclear] at hset
    · rw [hw, serve_wr hro] at h
      obtain ⟨hb, hrej⟩ := rejected_of_writeReg_busywr h hclear hset
      exact ⟨hb, r, w, hw, hrej⟩

/-- The engine's turn leaves BUSYWR alone. -/
theorem engineTurn_busywr {s t : State} (h : engineTurn s = .next t) : t.busywr = s.busywr := by
  unfold engineTurn at h
  split at h
  next =>
    cases h
    rfl
  next op hop =>
    obtain ⟨-, -, -, -, -, -, -, hbusywr⟩ := commandFrame op s t h
    exact hbusywr (.inr hop)

theorem step_sets_busywr {s t : State} (h : step s = .next t) (hclear : s.busywr = false) (hset : t.busywr = true) :
    busy s = true ∧ ∃ r w, hostWrites s r w ∧ (r = .cmd ∨ guarded r = true) := by
  rcases step_cases h with ⟨tr, hm, -, hserve⟩ | ⟨-, hturn⟩ | ⟨-, rfl⟩ | ⟨-, rfl⟩
  · obtain ⟨hb, r, w, rfl, hrej⟩ := rejected_of_serve_busywr hserve hclear hset
    exact ⟨hb, r, w, hm, hrej⟩
  · simp [engineTurn_busywr hturn, hclear] at hset
  · simp [State.reset] at hset
  · simp [hclear] at hset

theorem step_clears_busywr {s t : State} (h : step s = .next t) (hset : s.busywr = true) (hclear : t.busywr = false) :
    resetMoves s ∨ ∃ w : Word, hostWrites s .status w ∧ w.getLsbD 3 = true := by
  cases step_effect h with
  | reset hr => exact .inl hr
  | statusWrite w hw => exact .inr ⟨w, hw, by simpa [writeServed, hset] using hclear⟩
  | commit op hop =>
    obtain ⟨-, -, -, -, -, -, -, hbusywr⟩ := commandFrame op (afterMove s) _ (exec_commit op hop.1)
    exact nomatch hset.symm.trans ((hbusywr (.inr hop.1)).symm.trans hclear)
  | answered | engineIdle | release | irqEnWrite | rejected | stored | illegal | requested =>
    simp [writeServed, rejectIllegal, hset] at hclear

/-- Settles O33: a rejected write sets BUSYWR, and the two inversions say that nothing else sets or clears it. -/
theorem busywrIsSticky : Obligations.BusywrIsSticky := by
  refine ⟨fun s r w hr hb hw hrej => ?_, fun s t h => ⟨step_sets_busywr h, step_clears_busywr h⟩⟩
  have hro : readOnly r = false := hrej.elim (fun hcmd => hcmd ▸ rfl) readOnly_of_guarded
  exact ⟨_, (step_hostWrites hr hw hro).trans (writeReg_busy hrej w hb), rfl⟩

end Sys2Proof.Proofs.RegisterWriters
end

section
/-! PROOF. The invariant of a safe run (10_state sections 3 to 5): each operation keeps it, and so does every step. -/

namespace Sys2Proof.Proofs.Invariant

open Sys2Proof Sys2Proof.Machine

/-! ### The code registers -/

theorem codeDigit_lt (c k : Nat) : codeDigit c k < 10 := Nat.mod_lt _ (by norm_num)

/-- A six-digit number is the sum of its digits (42_truncate_format R210). -/
theorem sum_codeDigit {c : Nat} (h : c < 1000000) :
    codeDigit c 0 * 10 ^ 5 + codeDigit c 1 * 10 ^ 4 + codeDigit c 2 * 10 ^ 3 + codeDigit c 3 * 10 ^ 2
      + codeDigit c 4 * 10 + codeDigit c 5 = c := by
  simp only [codeDigit]
  omega

/-- CODE_BCD holds the six digits, four bits each (42_truncate_format R211). -/
theorem codeBcd_writeCode_toNat {v : Word} {c : Nat} (s : State) (hc : v.toNat % 1000000 = c) :
    (writeCode (format6 v) s).codeBcd.toNat = codeDigit c 0 * 16 ^ 5 + codeDigit c 1 * 16 ^ 4 + codeDigit c 2 * 16 ^ 3
      + codeDigit c 3 * 16 ^ 2 + codeDigit c 4 * 16 + codeDigit c 5 := by
  subst hc
  obtain ⟨-, hbcd, -⟩ := format6_spec v s
  exact hbcd

/-- CODE_BCD, digit by digit (10_state R38). -/
theorem bcdDigit_writeCode (v : Word) (s : State) {k : Nat} (hk : k < 6) :
    bcdDigit (writeCode (format6 v) s) k = codeDigit (v.toNat % 1000000) k := by
  generalize hc : v.toNat % 1000000 = c
  have hlt := codeDigit_lt c
  have h0 := hlt 0; have h1 := hlt 1; have h2 := hlt 2; have h3 := hlt 3; have h4 := hlt 4; have h5 := hlt 5
  rw [bcdDigit, codeBcd_writeCode_toNat s hc]
  interval_cases k <;> omega

/-- CODESTR, character by character (42_truncate_format R211). -/
theorem codeStr_writeCode_getD (v : Word) (s : State) {k : Nat} (hk : k < 6) :
    ((codeStr (writeCode (format6 v) s)).getD k 0).toNat = 0x30 + codeDigit (v.toNat % 1000000) k := by
  have hlt := codeDigit_lt (v.toNat % 1000000) k
  have hchar : (codeStr (writeCode (format6 v) s)).getD k 0 = BitVec.ofNat 8 (0x30 + codeDigit (v.toNat % 1000000) k) := by
    rw [codeStr_writeCode]
    interval_cases k <;> rfl
  rw [hchar, BitVec.toNat_ofNat]
  omega

/-- The code registers after FMT6 or TOTP satisfy the format laws (42_truncate_format R212). -/
theorem codeFormatted_writeCode (v : Word) (s : State) : CodeFormatted (writeCode (format6 v) s) := by
  have hc : v.toNat % 1000000 < 1000000 := Nat.mod_lt _ (by norm_num)
  have hlt := codeDigit_lt (v.toNat % 1000000)
  obtain ⟨hcode, -, -, hasc1⟩ := format6_spec v s
  refine ⟨hcode ▸ hc, fun k hk => ?_, ?_, fun k hk => ?_, ?_, ?_⟩
  · rw [bcdDigit_writeCode v s hk]
    exact Nat.le_of_lt_succ (hlt k)
  · simp (disch := decide) only [bcdDigit_writeCode]
    rw [hcode, sum_codeDigit hc]
  · rw [codeStr_writeCode_getD v s hk, bcdDigit_writeCode v s hk]
  · rw [writeCode_codeBcd, BitVec.toNat_setWidth]
    exact (Nat.mod_le _ _).trans_lt (format6 v).bcd.isLt
  · rw [hasc1]
    omega

/-! ### What a commit leaves in the result registers -/

/-- TRUNC[31] stays 0 whatever commits (10_state R35). -/
theorem resultsOf_trunc_lt (op : Instr) {s : State} (h : s.trunc.toNat < 2 ^ 31) :
    (resultsOf op s).trunc.toNat < 2 ^ 31 := by
  cases op with
  | dtrunc | totp => exact dynTrunc_val_lt _
  | zeroize => simp [resultsOf]
  | nop | tstep | hmac | fmt6 => exact h

/-- OFFSET[31:4] stays 0 whatever commits (10_state R36). -/
theorem resultsOf_offset_le (op : Instr) {s : State} (h : s.offset.toNat ≤ 15) : (resultsOf op s).offset.toNat ≤ 15 := by
  have hoff (t : Truncated) : (t.off.setWidth 32).toNat ≤ 15 := by
    rw [BitVec.toNat_setWidth]
    omega
  cases op with
  | dtrunc | totp => exact hoff _
  | zeroize => simp [resultsOf]
  | nop | tstep | hmac | fmt6 => exact h

/-- The code registers stay cleared or well formatted whatever commits (42_truncate_format R212). -/
theorem resultsOf_codeShape (op : Instr) {s : State} (h : CodeCleared s ∨ CodeFormatted s) :
    CodeCleared (resultsOf op s) ∨ CodeFormatted (resultsOf op s) := by
  cases op with
  | fmt6 | totp => exact .inr (codeFormatted_writeCode _ _)
  | zeroize => exact .inl ⟨rfl, rfl, rfl, rfl⟩
  | nop | tstep | hmac | dtrunc => exact h

@[simp] theorem resultsOf_err (op : Instr) (s : State) : (resultsOf op s).err = s.err := by cases op <;> rfl
@[simp] theorem resultsOf_errcode (op : Instr) (s : State) : (resultsOf op s).errcode = s.errcode := by cases op <;> rfl

/-! ### The invariant, operation by operation -/

/-- Out of reset, the invariant does not speak of TIME, IRQ_EN, CTR, KEY, DIGEST, BUSYWR, the port or the moves to come, and of
KEYWR only while busy. -/
theorem inv_of_frame {s t : State} (hs : s.Inv) (hr : t.rstN = true) (hk : busy s = true → t.keywr = s.keywr)
    (ht : t = { s with
      timeLo := t.timeLo, timeHi := t.timeHi, doneIe := t.doneIe, errIe := t.errIe, ctrLo := t.ctrLo, ctrHi := t.ctrHi
      key := t.key, keywr := t.keywr, digest := t.digest, busywr := t.busywr, rstN := t.rstN, resp := t.resp
      schedule := t.schedule }) : t.Inv where
  busyFlags := by rw [ht]; exact hs.busyFlags
  busyCmd := by rw [ht]; exact hs.busyCmd
  busyKey op := by
    intro hop hneed
    have hseq : s.seq = .busy op := by rw [ht] at hop; exact hop
    rw [keyv, hk ((busy_eq_true_iff s).2 ⟨op, hseq⟩)]
    exact hs.busyKey op hseq hneed
  errCode := by rw [ht]; exact hs.errCode
  hiddenIdle := by rw [ht]; exact hs.hiddenIdle
  truncTop := by rw [ht]; exact hs.truncTop
  offsetSmall := by rw [ht]; exact hs.offsetSmall
  codeShape := by rw [ht]; exact hs.codeShape
  resetHeld := fun h => by simp [hr] at h

/-- A transfer served without error, before its effect. -/
theorem inv_writeServed {s : State} (hs : s.Inv) (hr : s.rstN = true) : (writeServed s).Inv :=
  inv_of_frame hs hr (fun _ => rfl) rfl

theorem inv_storeReg {s : State} (hs : s.Inv) (hr : s.rstN = true) (hi : busy s = false) (r : Reg) (w : Word) :
    (storeReg r w s).Inv := by
  refine inv_of_frame hs ?_ (fun hb => by simp [hi] at hb) ?_
  · cases r <;> exact hr
  · cases r <;> rfl

theorem inv_statusW1c {s : State} (hs : s.Inv) (hr : s.rstN = true) (w : Word) : (statusW1c w s).Inv where
  busyFlags hb := by
    obtain ⟨hd, he⟩ := hs.busyFlags hb
    simp [hd, he]
  busyCmd := hs.busyCmd
  busyKey := hs.busyKey
  errCode := by
    have h := hs.errCode
    rw [statusW1c_err, statusW1c_errcode]
    cases w.getLsbD 2 with
    | true => simp
    | false => simpa using h
  hiddenIdle := hs.hiddenIdle
  truncTop := hs.truncTop
  offsetSmall := hs.offsetSmall
  codeShape := hs.codeShape
  resetHeld := fun h => by simp [hr] at h

/-- An idle engine that records a word and raises a command error (60_exceptions R262). -/
theorem inv_cmdError {s : State} (hs : s.Inv) (hr : s.rstN = true) (hi : s.seq = .idle) (w : Word) {code : ErrCode}
    (hcode : code ≠ .noError) : (cmdError code (latchCommand w s)).Inv where
  busyFlags := by simp [busy, hi]
  busyCmd op := by simp [hi]
  busyKey op := by simp [hi]
  errCode := by simp [hcode]
  hiddenIdle _ := hs.hiddenIdle ((busy_eq_false_iff s).2 hi)
  truncTop := hs.truncTop
  offsetSmall := hs.offsetSmall
  codeShape := hs.codeShape
  resetHeld := fun h => by simp [hr] at h

/-- A command that enters the sequencer with the key it needs (43_control R230). -/
theorem inv_enterBusy {s : State} (hs : s.Inv) (hr : s.rstN = true) {i : Instr} (hk : needsKey i = false ∨ keyv s = true) :
    (enterBusy i (latchCommand (encode i) s)).Inv where
  busyFlags _ := ⟨rfl, rfl⟩
  busyCmd op := by
    rintro ⟨⟩
    rfl
  busyKey op := by
    rintro ⟨⟩ hneed
    exact hk.resolve_left (by simp [hneed])
  errCode := by simp
  hiddenIdle := by simp [busy]
  truncTop := hs.truncTop
  offsetSmall := hs.offsetSmall
  codeShape := hs.codeShape
  resetHeld := fun h => by simp [hr] at h

theorem inv_accept {s : State} (hs : s.Inv) (hr : s.rstN = true) (hi : s.seq = .idle) (i : Instr) : (accept i s).Inv := by
  rcases accept_cases i s with ⟨-, -, h⟩ | ⟨hk, h⟩ <;> rw [h]
  · exact inv_cmdError hs hr hi _ (by decide)
  · exact inv_enterBusy hs hr hk

theorem inv_resetEngine (s : State) : (resetEngine s).Inv where
  busyFlags _ := ⟨rfl, rfl⟩
  busyCmd op h := nomatch h
  busyKey op h := nomatch h
  errCode := by simp [State.reset]
  hiddenIdle _ := rfl
  truncTop := by simp [State.reset]
  offsetSmall := by simp [State.reset]
  codeShape := .inl ⟨rfl, rfl, rfl, rfl⟩
  resetHeld _ := rfl

/-- While `rst_n = 0` no command is in flight (70_reset_and_hazards R300). -/
theorem rstN_of_busy {s : State} (hs : s.Inv) {op : Instr} (h : s.seq = .busy op) : s.rstN = true := by
  by_contra hr
  rw [hs.resetHeld (by simpa using hr)] at h
  cases h

/-- The commit of the command in flight (43_control R231). -/
theorem inv_finish {s : State} (hs : s.Inv) {op : Instr} (h : s.seq = .busy op) : (finish (resultsOf op s)).Inv where
  busyFlags := by simp [busy]
  busyCmd := by simp
  busyKey := by simp
  errCode := by simpa using hs.errCode
  hiddenIdle _ := rfl
  truncTop := resultsOf_trunc_lt op hs.truncTop
  offsetSmall := resultsOf_offset_le op hs.offsetSmall
  codeShape := resultsOf_codeShape op hs.codeShape
  resetHeld := by simp [rstN_of_busy hs h]

/-- Taking a move off the schedule keeps the invariant, in reset or not. -/
theorem inv_afterMove {s : State} (hs : s.Inv) : (afterMove s).Inv := by
  cases hr : s.rstN with
  | true => exact inv_of_frame hs hr (fun _ => rfl) rfl
  | false =>
    rw [hs.resetHeld hr]
    exact inv_resetEngine (afterMove s)

/-- Settles O30: each effect a step can have keeps the invariant. -/
theorem everyStepKeepsTheInvariant : Obligations.EveryStepKeepsTheInvariant := by
  intro s t hs hstep
  cases step_effect hstep with
  | answered x hr => exact inv_of_frame hs hr (fun _ => rfl) rfl
  | engineIdle => exact inv_afterMove hs
  | commit op h => exact inv_finish (inv_afterMove hs) h.1
  | reset => exact inv_resetEngine _
  | release => exact inv_of_frame hs rfl (fun _ => rfl) rfl
  | statusWrite w _ hr => exact inv_statusW1c (inv_writeServed hs hr) hr w
  | irqEnWrite w _ hr => exact inv_of_frame hs hr (fun _ => rfl) rfl
  | rejected _ hr => exact inv_of_frame hs hr (fun _ => rfl) rfl
  | stored r w _ _ hi hr => exact inv_storeReg (inv_writeServed hs hr) hr hi r w
  | illegal w _ hi hr => exact inv_cmdError (inv_writeServed hs hr) hr hi w (by decide)
  | requested i _ hi hr => exact inv_accept (inv_writeServed hs hr) hr hi i

end Sys2Proof.Proofs.Invariant
end

section
/-! PROOF. The register window: the register map, the fields of STATUS, and what a served write of each register sets. -/

namespace Sys2Proof.Proofs.RegisterWindow

open Sys2Proof Sys2Proof.Machine Sys2Proof.Proofs.RegisterWriters

/-! ### The register map -/

/-- Where the window holds no register (10_state R40). -/
theorem regAt_eq_none_iff (off : BitVec 8) : regAt off = none ↔ (off.toNat % 4 ≠ 0 ∨ 0x6C ≤ off.toNat) := by
  unfold regAt
  split
  case h_28 => -- no listed offset
    simp only [imp_false] at *
    simp only [true_iff]
    omega
  all_goals
    simp only [reduceCtorEq, false_iff]
    omega

/-- Settles O3: the list by evaluation, the rest by the two directions of `regAt`. -/
theorem registerMapIsExact : Obligations.RegisterMapIsExact := by
  refine ⟨by decide, fun off r => ⟨regOffset_of_regAt, ?_⟩, regAt_eq_none_iff⟩
  rintro rfl
  exact regAt_regOffset r

/-! ### STATUS -/

/-- A bit of a word, as a number. -/
theorem toNat_getLsbD (w : Word) (k : Nat) : (w.getLsbD k).toNat = w.toNat / 2 ^ k % 2 := Nat.toNat_testBit w.toNat k

theorem getLsbD_of_toNat {w : Word} {k : Nat} {b : Bool} (h : w.toNat / 2 ^ k % 2 = b.toNat) : w.getLsbD k = b := by
  rw [← toNat_getLsbD] at h
  cases b with
  | true => exact Bool.toNat_eq_one.1 h
  | false => exact Bool.toNat_eq_zero.1 h

/-- Settles O24, from the STATUS word as a number. -/
theorem statusWordFields : Obligations.StatusWordFields := by
  intro s
  have hnum := statusWord_toNat s
  have hkeywr := s.keywr.isLt
  have herrcode := (errBits s.errcode).isLt
  have hkeyv := Bool.toNat_le (keyv s)
  have hbusywr := Bool.toNat_le s.busywr
  have herr := Bool.toNat_le s.err
  have hdone := Bool.toNat_le s.done
  have hbusy := Bool.toNat_le (busy s)
  have hcode : (statusWord s).toNat / 2 ^ 4 % 2 ^ 4 = (errBits s.errcode).toNat := by omega
  exact ⟨rfl, getLsbD_of_toNat (by omega), busy_eq_true_iff s, getLsbD_of_toNat (by omega), getLsbD_of_toNat (by omega),
    getLsbD_of_toNat (by omega), fun h => by rw [hcode, h]; rfl, fun h => by rw [hcode, h]; rfl,
    fun h => by rw [hcode, h]; rfl, by omega, getLsbD_of_toNat (by omega), keyv_eq_true_iff s, by omega⟩

/-! ### Writes -/

/-- Out of reset and idle, a host write of a guarded register stores the word (20_memory R73). -/
theorem step_stores {s : State} {r : Reg} {w : Word} (hr : s.rstN = true) (hi : busy s = false) (h : hostWrites s r w)
    (hg : guarded r = true) : step s = .next (storeReg r w (writeServed s)) := by
  rw [step_hostWrites hr h (readOnly_of_guarded hg), writeReg_guarded hg, guardedWrite_idle r w (s := writeServed s) hi]

theorem getElem_digest_storeDigest (i j : Fin 5) (w : Word) (s : State) :
    (storeReg (.digest i) w s).digest[j] = if j = i then w else s.digest[j] := by
  simp [storeReg, Vector.getElem_set, Fin.ext_iff, eq_comm]

theorem getElem_key_storeKey (i j : Fin 8) (w : Word) (s : State) :
    (storeReg (.key i) w s).key[j] = if j = i then w else s.key[j] := by
  simp [storeReg, Vector.getElem_set, Fin.ext_iff, eq_comm]

/-- Settles O19, by the store of the addressed word. -/
theorem idleDataWritesSetOneWord : Obligations.IdleDataWritesSetOneWord := by
  intro s w hr hi
  exact ⟨fun h => step_stores hr hi h rfl, fun h => step_stores hr hi h rfl,
    fun i h => ⟨_, step_stores hr hi h rfl, rfl, fun j => getElem_digest_storeDigest i j w (writeServed s)⟩⟩

/-- Settles O20, by the store of the key word. -/
theorem idleKeyWriteSetsWordAndKeywr : Obligations.IdleKeyWriteSetsWordAndKeywr := by
  intro s i w hr hi h
  exact ⟨_, step_stores hr hi h rfl, rfl, fun j => getElem_key_storeKey i j w (writeServed s),
    fun j => getLsbD_keywr_storeKey i j w (writeServed s)⟩

/-- A write-one-to-clear flag: cleared by a 1, kept by a 0 (10_state R24). -/
theorem w1c_flag (flag bit : Bool) : (bit = true → (flag && !bit) = false) ∧ (bit = false → (flag && !bit) = flag) := by
  cases bit <;> simp

/-- Settles O21, flag by flag; ERRCODE follows the bit of ERR. -/
theorem statusWriteClearsFlags : Obligations.StatusWriteClearsFlags := by
  intro s w hr h
  obtain ⟨doneCleared, doneKept⟩ := w1c_flag s.done (w.getLsbD 1)
  obtain ⟨errCleared, errKept⟩ := w1c_flag s.err (w.getLsbD 2)
  obtain ⟨busywrCleared, busywrKept⟩ := w1c_flag s.busywr (w.getLsbD 3)
  exact ⟨statusW1c w (writeServed s), step_hostWrites hr h rfl, rfl, doneCleared, doneKept,
    fun hw => ⟨errCleared hw, if_pos hw⟩, fun hw => ⟨errKept hw, if_neg (hw ▸ Bool.false_ne_true)⟩,
    busywrCleared, busywrKept⟩

/-- The IRQ_EN word as a number (10_state R30). -/
theorem irqEnWord_toNat (s : State) : (irqEnWord s).toNat = s.doneIe.toNat + 2 * s.errIe.toNat := by
  simp only [irqEnWord, append_toNat, ofBool_toNat]
  simp
  omega

/-- Settles O22: the two enables written read back as the two low bits. -/
theorem irqEnWriteSetsEnables : Obligations.IrqEnWriteSetsEnables := by
  intro s w hr h
  refine ⟨writeIrqEn w (writeServed s), step_hostWrites hr h rfl, rfl, ?_⟩
  change (irqEnWord (writeIrqEn w (writeServed s))).toNat = _
  rw [irqEnWord_toNat, writeIrqEn_doneIe, writeIrqEn_errIe, toNat_getLsbD, toNat_getLsbD]
  omega

end Sys2Proof.Proofs.RegisterWindow
end

section
/-! PROOF. Isolation of the hidden working state (10_state R42): no operation reads it, so two steps that differ in it agree
otherwise. -/

namespace Sys2Proof.Proofs.HiddenState

open Sys2Proof Sys2Proof.Machine

/-- `s` with the hidden working state `h`. -/
def withHidden (h : Hidden) (s : State) : State := { s with hidden := h }

@[simp] theorem withHidden_seq (h : Hidden) (s : State) : (withHidden h s).seq = s.seq := rfl
@[simp] theorem withHidden_rstN (h : Hidden) (s : State) : (withHidden h s).rstN = s.rstN := rfl

/-- The outcome `o'` is `o` but for the hidden working state of the next state. -/
def AgreeUpToHidden (o o' : Host.Outcome State Fault Refusal) : Prop :=
  (∀ t, o = .next t → ∃ h, o' = .next (withHidden h t)) ∧ ∀ r, o = .refused r → o' = .refused r

theorem agree_next (s : State) (h : Hidden) : AgreeUpToHidden (.next s) (.next (withHidden h s)) := by
  refine ⟨?_, fun _ hr => (nomatch hr)⟩
  rintro _ ⟨⟩
  exact ⟨h, rfl⟩

theorem agree_refused (r : Refusal) : AgreeUpToHidden (.refused r) (.refused r) :=
  ⟨fun _ ht => (nomatch ht), fun _ hr => hr⟩

/-- A request does not read the hidden working state: acceptance replaces it, NO_KEY keeps it. -/
theorem agree_accept (i : Instr) (s : State) (h : Hidden) :
    AgreeUpToHidden (.next (accept i s)) (.next (accept i (withHidden h s))) := by
  rcases accept_cases i s with ⟨hneed, hkey, e⟩ | ⟨hkey, e⟩ <;> rw [e]
  · rw [accept_noKey hneed (s := withHidden h s) hkey]
    exact agree_next _ h
  · have e' : accept i (withHidden h s) = enterBusy i (latchCommand (encode i) (withHidden h s)) :=
      hkey.elim (accept_keyless · _) (accept_keyed i (s := withHidden h s))
    rw [e']
    exact agree_next _ _

/-- No result reads the hidden working state (43_control R233). -/
theorem resultsOf_withHidden (i : Instr) (s : State) (h : Hidden) :
    resultsOf i (withHidden h s) = withHidden h (resultsOf i s) := by
  cases i <;> rfl

theorem agree_exec (i : Instr) (s : State) (h : Hidden) : AgreeUpToHidden (exec i s) (exec i (withHidden h s)) := by
  rw [exec_eq_runCommand, exec_eq_runCommand]
  cases hs : s.seq with
  | idle =>
    rw [runCommand_idle i _ hs, runCommand_idle i _ (s := withHidden h s) hs]
    exact agree_accept i s h
  | busy current =>
    by_cases hc : current = i
    · subst hc
      rw [runCommand_commit current _ hs, runCommand_commit current _ (s := withHidden h s) hs, resultsOf_withHidden]
      exact agree_next _ Hidden.zero
    · rw [runCommand_other _ hs hc, runCommand_other _ (s := withHidden h s) hs hc]
      exact agree_next _ h

theorem agree_commandRequest (w : Word) (s : State) (h : Hidden) :
    AgreeUpToHidden (commandRequest w s) (commandRequest w (withHidden h s)) := by
  unfold commandRequest
  rw [withHidden_seq]
  cases s.seq with
  | busy op => exact agree_next _ h
  | idle =>
    cases decode w with
    | error e => exact agree_next _ h
    | ok i => exact agree_exec i s h

/-- A store does not read the hidden working state, nor does a busy rejection. -/
theorem guardedWrite_withHidden (r : Reg) (w : Word) (s : State) (h : Hidden) :
    guardedWrite r w (withHidden h s) = withHidden h (guardedWrite r w s) := by
  cases hb : busy s with
  | true =>
    rw [guardedWrite_busy r w hb, guardedWrite_busy r w (s := withHidden h s) hb]
    rfl
  | false =>
    rw [guardedWrite_idle r w hb, guardedWrite_idle r w (s := withHidden h s) hb]
    cases r <;> rfl

theorem agree_writeReg (r : Reg) (w : Word) (s : State) (h : Hidden) :
    AgreeUpToHidden (writeReg r w s) (writeReg r w (withHidden h s)) := by
  cases r with
  | cmd => exact agree_commandRequest w s h
  | timeLo | timeHi | key | digest =>
    simp only [writeReg, guardedWrite_withHidden]
    exact agree_next _ h
  | _ => exact agree_next _ h

/-- A read never returns hidden working state (10_state R42). -/
theorem busRead_withHidden (off : BitVec 8) (be : BitVec 4) (s : State) (h : Hidden) :
    busRead off be (withHidden h s) = busRead off be s := by
  have hreg (r : Reg) : readReg r (withHidden h s) = readReg r s := by cases r <;> rfl
  simp only [busRead, hreg]

/-- A transfer neither returns nor stores hidden working state. -/
theorem agree_serve (tr : Transfer) (s : State) (h : Hidden) :
    AgreeUpToHidden (serve tr s) (serve tr (withHidden h s)) := by
  cases tr with
  | read off be =>
    rw [serve_read, serve_read, busRead_withHidden]
    exact agree_next _ h
  | write off be w =>
    rcases write_cases off be w with he | ⟨r, hro, hw⟩
    · rw [serve_write_error he, serve_write_error he]
      exact agree_next _ h
    · rw [hw, serve_wr hro, serve_wr hro]
      exact agree_writeReg r w (respond (.write false) s) h

theorem agree_engineTurn (s : State) (h : Hidden) : AgreeUpToHidden (engineTurn s) (engineTurn (withHidden h s)) := by
  unfold engineTurn
  rw [withHidden_seq]
  cases s.seq with
  | idle => exact agree_next _ h
  | busy op => exact agree_exec op s h

theorem agree_handleEvent (e : Event) (s : State) (h : Hidden) :
    AgreeUpToHidden (handleEvent e s) (handleEvent e (withHidden h s)) := by
  cases e with
  | host tr =>
    cases hr : s.rstN with
    | true => simpa [handleEvent, hr] using agree_serve tr s h
    | false => simpa [handleEvent, hr] using agree_refused .transferDuringReset
  | engine => exact agree_engineTurn s h
  | resetAssert => exact agree_next _ Hidden.zero
  | resetRelease => exact agree_next _ h

theorem agree_step (s : State) (h : Hidden) : AgreeUpToHidden (step s) (step (withHidden h s)) := by
  cases hh : s.schedule.head? with
  | none =>
    rw [step_engine (.inl hh), step_engine (s := withHidden h s) (.inl hh)]
    exact agree_engineTurn (afterMove s) h
  | some e =>
    rw [step_of_head hh, step_of_head (s := withHidden h s) hh]
    exact agree_handleEvent e (afterMove s) h

/-- Settles O49: the two steps agree up to the hidden working state, next or refused. -/
theorem hiddenStateReachesNoRegister : Obligations.HiddenStateReachesNoRegister := by
  intro s h
  exact agree_step s h

end Sys2Proof.Proofs.HiddenState
end

section
/-! PROOF. Bus transfers (20_memory sections 2 and 3): what a read returns, which transfers are bus errors, the order of the halves of
TIME, and what transfers served while a command is in flight leave to its commit. -/

namespace Sys2Proof.Proofs.BusTransfers

open Sys2Proof Sys2Proof.Machine Sys2Proof.Proofs.RegisterWindow

/-! ### Reads -/

/-- The read errors of 20_memory R80: misaligned, partial, or of a reserved offset. -/
def ReadErrs (off : BitVec 8) (be : BitVec 4) : Prop := off.toNat % 4 ≠ 0 ∨ be ≠ 0xF ∨ 0x6C ≤ off.toNat

/-- The check of 20_memory R78 and R79 fails exactly on a misaligned or partial transfer. -/
theorem illFormed_iff (off : BitVec 8) (be : BitVec 4) :
    (!(alignedOffset off && fullEnable be)) = true ↔ (off.toNat % 4 ≠ 0 ∨ be ≠ 0xF) := by
  simp [alignedOffset, fullEnable]

theorem busRead_of_readErrs {off : BitVec 8} {be : BitVec 4} (h : ReadErrs off be) (s : State) :
    busRead off be s = (0, true) := by
  unfold busRead
  split
  next => rfl
  next hwf =>
    rw [illFormed_iff] at hwf
    have hnone : regAt off = none := (regAt_eq_none_iff off).2 (by unfold ReadErrs at h; tauto)
    rw [hnone]

/-- A read is a bus error, or a whole read of a register (20_memory R72). -/
theorem read_cases (off : BitVec 8) (be : BitVec 4) : ReadErrs off be ∨ ∃ r, off = regOffset r ∧ be = 0xF := by
  by_cases h : ReadErrs off be
  · exact .inl h
  · right
    simp only [ReadErrs, not_or, not_not] at h
    obtain ⟨haligned, hfull, hlow⟩ := h
    obtain ⟨r, hr⟩ : ∃ r, regAt off = some r :=
      Option.ne_none_iff_exists'.1 fun hnone => by
        rcases (regAt_eq_none_iff off).1 hnone with hodd | hhigh
        · exact hodd haligned
        · exact hlow hhigh
    exact ⟨r, regOffset_of_regAt hr, hfull⟩

theorem busRead_err_iff (off : BitVec 8) (be : BitVec 4) (s : State) : (busRead off be s).2 = true ↔ ReadErrs off be := by
  refine ⟨fun herr => ?_, fun h => by rw [busRead_of_readErrs h]⟩
  rcases read_cases off be with h | ⟨r, rfl, rfl⟩
  · exact h
  · simp at herr

/-- KEY0 to KEY7 are the registers at 0x20 to 0x3C (10_state R21). -/
theorem exists_key_at {off : BitVec 8} (haligned : off.toNat % 4 = 0) (hfirst : 0x20 ≤ off.toNat) (hlast : off.toNat ≤ 0x3C) :
    ∃ i, off = regOffset (.key i) := by
  refine ⟨⟨(off.toNat - 0x20) / 4, by omega⟩, BitVec.eq_of_toNat_eq ?_⟩
  simp only [regOffset, BitVec.toNat_ofNat]
  omega

/-- What a read returns does not depend on the moves to come. -/
theorem busRead_afterMove (off : BitVec 8) (be : BitVec 4) (s : State) : busRead off be (afterMove s) = busRead off be s := rfl

/-- A read served out of reset changes nothing but the bus response (20_memory R72). -/
theorem step_read {s : State} {off : BitVec 8} {be : BitVec 4} (hr : s.rstN = true) (hm : hostMoves s (.read off be))
    {data : Word} {err : Bool} (h : busRead off be s = (data, err)) :
    step s = .next { s with schedule := s.schedule.tail, resp := some (.read data err) } := by
  rw [step_host hm hr, serve_read, busRead_afterMove, h]
  rfl

/-- Settles O16: the values by definition; each served read is the step of `step_read` with what `busRead` returns there. -/
theorem readsReturnRegistersAndChangeNothing : Obligations.ReadsReturnRegistersAndChangeNothing := by
  refine ⟨fun s => ?_, fun s off be hr hm => ⟨fun h => ?_, fun _ _ hreserved => ?_, fun haligned hfull hfirst hlast => ?_,
    fun r hoff hfull _ => ?_⟩⟩
  · exact ⟨rfl, rfl, rfl, irqEnWord_toNat s, rfl, rfl, rfl, rfl, fun _ => rfl, fun _ => rfl, rfl, rfl, rfl, rfl, rfl, rfl⟩
  · exact step_read hr hm (busRead_of_readErrs (h.imp_right .inl) s)
  · exact step_read hr hm (busRead_of_readErrs (.inr (.inr hreserved)) s)
  · obtain ⟨i, rfl⟩ := exists_key_at haligned hfirst hlast
    subst hfull
    exact step_read hr hm (busRead_rd (.key i) s)
  · subst hoff hfull
    exact step_read hr hm (busRead_rd r s)

/-! ### Bus errors -/

/-- The offsets no write reaches: where the window holds no register, and those of the read-only ones (20_memory R80). -/
theorem regAt_all_readOnly_iff (off : BitVec 8) :
    (regAt off).all readOnly = true ↔
      (off.toNat % 4 ≠ 0 ∨ 0x6C ≤ off.toNat ∨ off.toNat ∈ [0x00, 0x18, 0x1C, 0x54, 0x58, 0x5C, 0x60, 0x64, 0x68]) := by
  cases hreg : regAt off with
  | none =>
    have := (regAt_eq_none_iff off).1 hreg
    simp only [Option.all_none, true_iff]
    tauto
  | some r =>
    obtain rfl := regOffset_of_regAt hreg
    cases r with
    | key i => revert i; decide
    | digest i => revert i; decide
    | _ => decide

theorem busWriteErr_eq (off : BitVec 8) (be : BitVec 4) :
    busWriteErr off be = (!(alignedOffset off && fullEnable be) || (regAt off).all readOnly) := by
  unfold busWriteErr
  cases !(alignedOffset off && fullEnable be) <;> cases regAt off <;> rfl

theorem busWriteErr_iff (off : BitVec 8) (be : BitVec 4) :
    busWriteErr off be = true ↔
      (off.toNat % 4 ≠ 0 ∨ be ≠ 0xF ∨ 0x6C ≤ off.toNat ∨
        off.toNat ∈ [0x00, 0x18, 0x1C, 0x54, 0x58, 0x5C, 0x60, 0x64, 0x68]) := by
  rw [busWriteErr_eq, Bool.or_eq_true, illFormed_iff, regAt_all_readOnly_iff]
  tauto

/-- Settles O17: the two error sets, and the frame of an erroring read and of an erroring write. -/
theorem busErrorsChangeNothing : Obligations.BusErrorsChangeNothing := by
  refine fun off be => ⟨busWriteErr_iff off be, busRead_err_iff off be, fun s hr hm herr => ?_, fun s w hr hm herr => ?_⟩
  · exact step_read hr hm (busRead_of_readErrs ((busRead_err_iff off be s).1 herr) s)
  · rw [step_host hm hr, serve_write_error herr]
    rfl

/-! ### The halves of TIME -/

/-- A run that begins with a store, out of reset and idle. -/
theorem runsTo_store {s t : State} {r : Reg} {w : Word} {es : List Event} (hg : guarded r = true) (hr : s.rstN = true)
    (hi : busy s = false) (h : RunsTo (storeReg r w (respond (.write false) s)) es t) : RunsTo s (.host (wr r w) :: es) t := by
  refine runsTo_cons (step_stores (s := { s with schedule := .host (wr r w) :: es }) hr hi rfl hg) ?_
  cases r <;> exact h

/-- Settles O26: both orders are two stores, to the two halves. -/
theorem timeHalvesInEitherOrder : Obligations.TimeHalvesInEitherOrder := by
  intro s lo hi hr hidle
  refine ⟨{ s with timeLo := lo, timeHi := hi, resp := some (.write false), schedule := [] }, ?_, ?_, rfl⟩
  all_goals exact runsTo_store rfl hr hidle (runsTo_store rfl hr hidle (runsTo_nil _))

/-! ### Transfers between acceptance and commit -/

/-- `s` without what transfers may change while a command is in flight: the STATUS flags, IRQ_EN, the bus response and the moves to
come. -/
def forgetFlags (s : State) : State :=
  { s with
    done := false, err := false, errcode := .noError, busywr := false, doneIe := false, errIe := false
    resp := none, schedule := [] }

/-- While busy, a transfer changes flags only: writes of CMD and of the data registers are rejected (20_memory R74). -/
theorem forgetFlags_serve {tr : Transfer} {s t : State} (hb : busy s = true) (h : serve tr s = .next t) :
    forgetFlags t = forgetFlags s := by
  cases tr with
  | read off be =>
    cases h
    rfl
  | write off be w =>
    rcases write_cases off be w with he | ⟨r, hro, hw⟩
    · rw [serve_write_error he] at h
      cases h
      rfl
    · rw [hw, serve_wr hro] at h
      rcases writeReg_cases h with ⟨-, hcmd⟩ | ⟨-, rfl⟩ | ⟨-, rfl⟩ | ⟨-, -, rfl⟩ | ⟨-, hidle, -⟩ | ⟨-, rfl⟩
      · rw [commandRequest_busy w (s := respond (.write false) s) hb] at hcmd
        cases hcmd
        rfl
      · rfl
      · rfl
      · rfl
      · exact nomatch hb.symm.trans hidle
      · rfl

/-- What states that are equal but for the flags have in common. -/
theorem kept_of_forgetFlags {s u : State} (h : forgetFlags u = forgetFlags s) :
    dataRegs u = dataRegs s ∧ u.cmd = s.cmd ∧ u.keywr = s.keywr ∧ u.seq = s.seq ∧ u.rstN = s.rstN :=
  ⟨(congrArg dataRegs h :), (congrArg State.cmd h :), (congrArg State.keywr h :), (congrArg State.seq h :),
    (congrArg State.rstN h :)⟩

/-- No command reads what `forgetFlags` forgets (43_control R233). -/
theorem forgetFlags_commit (op : Instr) {s u : State} (h : forgetFlags u = forgetFlags s) :
    forgetFlags (finish (resultsOf op u)) = forgetFlags (finish (resultsOf op s)) := by
  have key (v : State) : forgetFlags (finish (resultsOf op v)) = forgetFlags (finish (resultsOf op (forgetFlags v))) := by
    cases op <;> rfl
  rw [key u, key s, h]

theorem runsTo_nil_self {s : State} (h : s.schedule = []) : RunsTo s [] s := by
  have hs : { s with schedule := [] } = s := by rw [← h]
  simpa only [hs] using runsTo_nil s

/-- With `op` in flight, any transfers and then the engine's turn lead to the commit of `op`, from a state that differs from the one at
acceptance in flags only. -/
theorem runsTo_transfers_commit {op : Instr} (ts : List Transfer) {s : State} (hr : s.rstN = true) (hs : s.seq = .busy op) :
    ∃ u, forgetFlags u = forgetFlags s ∧ RunsTo s (ts.map .host ++ [.engine]) (finish (resultsOf op u)) := by
  induction ts generalizing s with
  | nil => exact ⟨{ s with schedule := [] }, rfl, runsTo_cons (step_scheduled_engine s [] hs) (runsTo_nil_self (by simp))⟩
  | cons tr ts ih =>
    have hb : busy s = true := (busy_eq_true_iff s).2 ⟨op, hs⟩
    obtain ⟨t, ht⟩ := serve_next tr { s with schedule := ts.map .host ++ [.engine] }
    have hframe : forgetFlags t = forgetFlags s := forgetFlags_serve (s := { s with schedule := ts.map .host ++ [.engine] }) hb ht
    obtain ⟨-, -, -, hseq, hrst⟩ := kept_of_forgetFlags hframe
    obtain ⟨u, hu, hrun⟩ := ih (hrst.trans hr) (hseq.trans hs)
    exact ⟨u, hu.trans hframe, runsTo_cons ((step_scheduled_host s tr _ hr).trans ht) hrun⟩

/-- Settles O45: both runs end in a commit of `op`, from states equal but for the flags. -/
theorem resultsDependOnlyOnAcceptance : Obligations.ResultsDependOnlyOnAcceptance := by
  intro s op ts hr hs
  obtain ⟨u, hu, hearly⟩ := runsTo_transfers_commit [] hr hs
  obtain ⟨v, hv, hlate⟩ := runsTo_transfers_commit ts hr hs
  obtain ⟨hdata, hcmd, hkeywr, -, -⟩ := kept_of_forgetFlags (forgetFlags_commit op (hv.trans hu.symm))
  exact ⟨_, _, hearly, hlate, hdata, hcmd, hkeywr, rfl, rfl, rfl⟩

end Sys2Proof.Proofs.BusTransfers
end

section
/-! PROOF. The encoding of the CMD word (30_encoding R101 to R105): which words are legal, and what a write of an illegal one does. -/

namespace Sys2Proof.Proofs.Encoding

open Sys2Proof Sys2Proof.Machine Sys2Proof.Proofs.RegisterWriters

/-! ### Legal and illegal words -/

theorem encode_toNat (i : Instr) : (encode i).toNat = (opcode i).toNat := zeroExtend_toNat (opcode i)

theorem decode_eq_ok_iff (w : Word) (i : Instr) : decode w = .ok i ↔ w = encode i :=
  ⟨encode_of_decode, fun h => h ▸ decode_encode i⟩

/-- The assigned OP values (30_encoding R102). -/
theorem exists_opcode_iff (n : Nat) : (∃ i, n = (opcode i).toNat) ↔ n ≤ 0x05 ∨ n = 0x0F := by
  constructor
  · rintro ⟨i, rfl⟩
    cases i <;> decide
  · rintro (hlow | rfl)
    · interval_cases n
      exacts [⟨.nop, rfl⟩, ⟨.tstep, rfl⟩, ⟨.hmac, rfl⟩, ⟨.dtrunc, rfl⟩, ⟨.fmt6, rfl⟩, ⟨.totp, rfl⟩]
    · exact ⟨.zeroize, rfl⟩

/-- A word is legal exactly when, as a number, it is an assigned OP; RSVD = 0 is part of this (30_encoding R104). -/
theorem decode_ok_iff_toNat (w : Word) : (∃ i, decode w = .ok i) ↔ w.toNat ≤ 0x05 ∨ w.toNat = 0x0F := by
  simp only [decode_eq_ok_iff, ← BitVec.toNat_inj, encode_toNat, exists_opcode_iff]

theorem decode_error_iff_toNat (w : Word) : (∃ e, decode w = .error e) ↔ ¬(w.toNat ≤ 0x05 ∨ w.toNat = 0x0F) := by
  rw [← decode_ok_iff_toNat]
  cases decode w <;> simp

/-- Settles O1: a legal word is its command's, an illegal one is any other number, and its request while idle is rejected. -/
theorem decodeIsTheOpcodeMap : Obligations.DecodeIsTheOpcodeMap := by
  refine ⟨decode_eq_ok_iff, fun w => ?_, fun s w e hi hd => ⟨_, commandRequest_illegal hd hi, rfl, rfl⟩⟩
  rw [decode_error_iff_toNat]
  simp only [List.mem_cons, List.not_mem_nil, or_false]
  omega

/-- Settles O2: the seven are the words of their commands, the other three evaluate to their reasons. -/
theorem listedWordsDecode : Obligations.ListedWordsDecode :=
  ⟨decode_encode .nop, decode_encode .tstep, decode_encode .hmac, decode_encode .dtrunc, decode_encode .fmt6,
    decode_encode .totp, decode_encode .zeroize, rfl, rfl, rfl⟩

/-! ### The write of an illegal word -/

/-- Out of reset and idle, a host write of an illegal word to CMD raises ILLEGAL_CMD and accepts nothing (43_control R230). -/
theorem step_illegalWord {s : State} {w : Word} {e : Illegal} (hr : s.rstN = true) (hi : s.seq = .idle)
    (h : hostWrites s .cmd w) (hd : decode w = .error e) : step s = .next (rejectIllegal w (writeServed s)) :=
  (step_hostWrites hr h rfl).trans (commandRequest_illegal hd (s := writeServed s) hi)

/-- Settles O23: the ranges hold no assigned OP, so the word is illegal and the step is its rejection. -/
theorem illegalWordRaisesIllegalCmd : Obligations.IllegalWordRaisesIllegalCmd := by
  intro s w hr hi h hrange
  obtain ⟨e, hd⟩ := (decode_error_iff_toNat w).2 (by omega)
  exact step_illegalWord hr ((busy_eq_false_iff s).1 hi) h hd

end Sys2Proof.Proofs.Encoding
end

section
/-! PROOF. What all commands share (43_control R230, 20_memory R74): acceptance while idle, rejection while busy. -/

namespace Sys2Proof.Proofs.Commands

open Sys2Proof Sys2Proof.Machine Sys2Proof.Proofs.RegisterWriters

/-- Idle, a command is accepted if it needs no key or KEYV = 1 (43_control R230). -/
theorem exec_accepted {i : Instr} {s : State} (hidle : s.seq = .idle) (hk : needsKey i = false ∨ keyv s = true) :
    ∃ t, exec i s = .next t ∧ AcceptedFrom i s t := by
  have haccept : accept i s = enterBusy i (latchCommand (encode i) s) := hk.elim (accept_keyless · s) (accept_keyed i)
  exact ⟨_, (exec_idle i hidle).trans (congrArg _ haccept), rfl⟩

/-- A host write of any command's word while a command is in flight is a rejected CMD write (20_memory R74). -/
theorem rejectedWhileBusy (i : Instr) : RejectedWhileBusy i := by
  intro s current hbusy hr hm
  have hb : busy (writeServed s) = true := (busy_eq_true_iff _).2 ⟨current, hbusy⟩
  exact (step_hostWrites hr hm rfl).trans (writeReg_busy (.inl rfl) _ hb)

end Sys2Proof.Proofs.Commands
end

section
/-! PROOF. Time steps (40_timestep R131 to R137): TimeStep as division, the windows of time, and the TSTEP command. -/

namespace Sys2Proof.Proofs.TimeSteps

open Sys2Proof Sys2Proof.Machine Sys2Proof.Proofs.Encoding Sys2Proof.Proofs.Commands

/-! ### TimeStep -/

theorem timeStep_mono {t u : DWord} (h : t.toNat ≤ u.toNat) : (timeStep t).toNat ≤ (timeStep u).toNat := by
  rw [timeStep_toNat, timeStep_toNat]
  exact Nat.div_le_div_right h

/-- The bound is the value at 2^64 - 1, the largest time (40_timestep R131). -/
theorem timeStep_le (t : DWord) : (timeStep t).toNat ≤ 0x0888888888888888 :=
  timeStep_mono (u := 0xFFFFFFFFFFFFFFFF) (Nat.le_of_lt_succ t.isLt)

/-- Settles O35: TimeStep as a number is the quotient, and its largest value is evaluated. -/
theorem timeStepExactAndMonotone : Obligations.TimeStepExactAndMonotone :=
  ⟨timeStep_toNat, rfl, timeStep_le, fun _ _ => timeStep_mono⟩

/-- Settles O34: below 2^64 - 1 the next time does not wrap, and the quotient grows by one exactly at a multiple of 30. -/
theorem windowBoundaries : Obligations.WindowBoundaries := by
  intro t ht
  have hnext : (t + 1).toNat = t.toNat + 1 := BitVec.toNat_add_of_lt (Nat.add_lt_of_lt_sub ht)
  refine ⟨?_, timeStep_mono (by omega)⟩
  rw [timeStep_toNat, timeStep_toNat, hnext]
  split <;> omega

/-! ### Times of one window -/

/-- TimeStep sees only the window a time lies in (40_timestep R135). -/
theorem timeStep_eq_of_window {t u : DWord} (h : t.toNat / 30 = u.toNat / 30) : timeStep t = timeStep u := by
  apply BitVec.eq_of_toNat_eq
  rw [timeStep_toNat, timeStep_toNat, h]

/-- Settles O36: both commands read TIME only through TimeStep, and TOTP reads nothing else but KEY. -/
theorem windowDeterminism : Obligations.WindowDeterminism := by
  intro s u hwindow
  have hstep : timeStep (timeVal s) = timeStep (timeVal u) := timeStep_eq_of_window hwindow
  constructor
  · intro hs hu
    refine ⟨_, _, exec_commit .tstep hs, exec_commit .tstep hu, ?_⟩
    simp [resultsOf, tstepResults, hstep]
  · intro hs hu hkey
    refine ⟨_, _, exec_commit .totp hs, exec_commit .totp hu, ?_⟩
    simp [resultsOf, totpResults, keyBytes, hstep, hkey]

/-! ### TSTEP -/

/-- The counter halves written from TIMEVAL are TIME div 30 as one number (40_timestep R132). -/
theorem counterOfTime_writeCtr (s t : State) : CounterOfTime s (writeCtr (timeStep (timeVal s)) t) := by
  unfold CounterOfTime
  rw [← timeVal_toNat, ← timeStep_toNat]
  exact halves_toNat _

/-- Settles O9: TSTEP needs no key, and its commit writes the two counter halves and finishes. -/
theorem tstepCommand : Obligations.TstepCommand :=
  ⟨(decode_eq_ok_iff · .tstep), fun _ hidle => exec_accepted hidle (.inl rfl),
    fun s hbusy => ⟨_, exec_commit .tstep hbusy, counterOfTime_writeCtr s s, rfl⟩, rejectedWhileBusy .tstep⟩

end Sys2Proof.Proofs.TimeSteps
end

section
/-! PROOF. SHA-1 (41_hmac_sha1 R151, R157): the padding fills whole 64-byte blocks, and the public check values. -/

namespace Sys2Proof.Proofs.Sha1

open Sys2Proof Sys2Proof.Machine

/-! ### Padding -/

theorem padZeros_fills (len : Nat) : (len + 1 + padZeros len + 8) % 64 = 0 := by
  unfold padZeros Config.sha1BlockBytes
  omega

theorem padZeros_le {len k : Nat} (h : (len + 1 + k + 8) % 64 = 0) : padZeros len ≤ k := by
  unfold padZeros Config.sha1BlockBytes
  omega

theorem sha1Pad_length (m : List Byte) : (sha1Pad m).length = m.length + 1 + padZeros m.length + 8 := by
  simp +arith [sha1Pad]

theorem sha1Pad_length_mod (m : List Byte) : (sha1Pad m).length % 64 = 0 := by
  rw [sha1Pad_length, padZeros_fills]

/-! ### Blocks -/

theorem sha1Blocks_flatten (n : Nat) (bs : List Byte) : (sha1Blocks n bs).flatten = bs.take (64 * n) := by
  induction n generalizing bs with
  | zero => simp [sha1Blocks]
  | succ n ih => rw [sha1Blocks, List.flatten_cons, ih, Nat.mul_succ, Nat.add_comm, List.take_add, Config.sha1BlockBytes]

theorem length_of_mem_sha1Blocks {n : Nat} {bs b : List Byte} (hlen : 64 * n ≤ bs.length) (hb : b ∈ sha1Blocks n bs) :
    b.length = 64 := by
  induction n generalizing bs with
  | zero => simp [sha1Blocks] at hb
  | succ n ih =>
    rcases List.mem_cons.1 hb with rfl | htail
    · exact List.length_take_of_le (by rw [Config.sha1BlockBytes]; omega)
    · exact ih (by rw [List.length_drop, Config.sha1BlockBytes]; omega) htail

/-- Settles O38: the zero count is the least solution of the rule's congruence, so the blocks cover the padding exactly. -/
theorem paddingFillsWholeBlocks : Obligations.PaddingFillsWholeBlocks := by
  intro m
  have hwhole : 64 * ((sha1Pad m).length / 64) = (sha1Pad m).length :=
    Nat.mul_div_cancel' (Nat.dvd_of_mod_eq_zero (sha1Pad_length_mod m))
  refine ⟨⟨padZeros m.length, rfl, padZeros_fills m.length, fun _ => padZeros_le⟩, sha1Pad_length_mod m, ?_,
    fun _ => length_of_mem_sha1Blocks hwhole.le⟩
  rw [sha1Blocks_flatten, hwhole, List.take_length]

/-! ### Check values -/

/-- Settles O37: both messages pad to one block, which the kernel evaluates. -/
theorem sha1CheckValues : Obligations.Sha1CheckValues :=
  ⟨by decide +kernel, by decide +kernel⟩

end Sys2Proof.Proofs.Sha1
end

section
/-! PROOF. HMAC-SHA1 (41_hmac_sha1 R160 to R170): zero-padded keys, the four fixed blocks of the engine, and the HMAC command. -/

namespace Sys2Proof.Proofs.Hmac

open Sys2Proof Sys2Proof.Machine Sys2Proof.Proofs.Encoding Sys2Proof.Proofs.Commands

/-! ### The padded key -/

theorem zeros_append_zeros (m n : Nat) : zeros m ++ zeros n = zeros (m + n) := List.replicate_append_replicate

/-- Settles O40: HMAC reads the key only through K0, and both keys pad to the same K0. -/
theorem zeroPaddedKeysAgree : Obligations.ZeroPaddedKeysAgree := by
  intro k m hk
  have hk0 : k ++ zeros (32 - k.length) ++ zeros (64 - (k ++ zeros (32 - k.length)).length)
      = k ++ zeros (64 - k.length) := by
    rw [List.append_assoc, zeros_append_zeros, List.length_append, zeros_length]
    congr 2
    omega
  simp only [hmacSha1, Config.sha1BlockBytes, hk0]

/-- K0 of a 32-byte key under a pad byte: against its 32 zero bytes the pad byte alone remains (41_hmac_sha1 R161). -/
theorem xorBytes_paddedKey {k : List Byte} (hk : k.length = 32) (pad : Byte) :
    xorBytes (k ++ zeros (64 - k.length)) (List.replicate 64 pad) = keyBlock pad k := by
  have hzeros : xorBytes (zeros 32) (List.replicate 32 pad) = List.replicate 32 pad := by
    simp [xorBytes, zeros]
  rw [hk, show 64 = 32 + 32 from rfl, ← List.replicate_append_replicate, keyBlock, xorBytes,
    List.zipWith_append (by simp [hk])]
  exact congrArg _ hzeros

theorem keyBlock_length {k : List Byte} (hk : k.length = 32) (pad : Byte) : (keyBlock pad k).length = 64 := by
  simp [keyBlock, xorBytes, hk]

theorem innerDigest_length (k : List Byte) (c : DWord) : (innerDigest k c).length = 20 := chainBytes_length _

/-! ### The two hashes -/

/-- The inner hash, of 72 bytes: the key block and the counter block (41_hmac_sha1 R158, R161). -/
theorem sha1_innerMessage {k : List Byte} (hk : k.length = 32) (c : DWord) :
    sha1 (keyBlock 0x36 k ++ be8 c) = innerDigest k c := by
  rw [sha1_two_blocks _ _ (keyBlock_length hk _) (by rw [be8_length]; rfl), be8_length]
  rfl

/-- The outer hash, of 84 bytes: the key block and the inner-digest block (41_hmac_sha1 R158, R161). -/
theorem sha1_outerMessage {k d : List Byte} (hk : k.length = 32) (hd : d.length = 20) :
    sha1 (keyBlock 0x5C k ++ d) = chainBytes (sha1Compress (sha1Compress sha1Iv (keyBlock 0x5C k)) (innerBlock d)) := by
  rw [sha1_two_blocks _ _ (keyBlock_length hk _) (by rw [hd]; rfl), hd]
  rfl

theorem hmacEngine_eq_hmacSha1 {k : List Byte} (hk : k.length = 32) (c : DWord) : hmacEngine k c = hmacSha1 k (be8 c) := by
  rw [hmacSha1, Config.sha1BlockBytes, xorBytes_paddedKey hk, xorBytes_paddedKey hk, sha1_innerMessage hk,
    sha1_outerMessage hk (innerDigest_length k c), hmacEngine]

/-! ### The fixed blocks in words -/

theorem eq_of_fromBE_eq {a b : List Byte} (hlen : a.length = b.length) (h : fromBE a = fromBE b) : a = b := by
  rw [← beBytes_fromBE a, hlen, h, beBytes_fromBE]

/-- BE_8 of a counter is BE_4 of its two halves (40_timestep R134). -/
theorem be8_eq_be4_halves (c : DWord) : be8 c = be4 (c.extractLsb' 32 32) ++ be4 (c.extractLsb' 0 32) := by
  refine eq_of_fromBE_eq (by simp) ?_
  rw [fromBE_append, fromBE_be4, fromBE_be4, be4_length, be8, fromBE_beBytes]
  exact (Nat.mod_eq_of_lt c.isLt).trans (halves_toNat c).symm

theorem counterBlock_eq_words (c : DWord) :
    counterBlock c =
      bytesOfWords ([c.extractLsb' 32 32, c.extractLsb' 0 32, 0x80000000] ++ List.replicate 11 0 ++ [0, 0x00000240]) := by
  rw [counterBlock, counterBytes, be8_eq_be4_halves]
  rfl

theorem innerBlock_eq_words (h : Chain) :
    innerBlock (chainBytes h) =
      bytesOfWords ([h.a, h.b, h.c, h.d, h.e, 0x80000000] ++ List.replicate 9 0 ++ [0x000002A0]) := rfl

/-- Settles O39: the rule's four compressions are `hmacEngine` written out, and each fixed block is known in words. -/
theorem engineHmacIsHmacSha1 : Obligations.EngineHmacIsHmacSha1 :=
  fun _ c hk =>
    ⟨(hmacEngine_eq_hmacSha1 hk c).symm, hmacEngine_eq_hmacSha1 hk c, counterBlock_eq_words c, innerBlock_eq_words _⟩

/-! ### The HMAC command -/

/-- The five words written from the engine's digest are HMAC-SHA1 of the counter under the key (41_hmac_sha1 R170). -/
theorem digestOf_hmacEngine (s : State) (c : DWord) : DigestOf s.key c (digestWords (hmacEngine (keyBytes s) c)) := by
  unfold DigestOf
  rw [bytesOfWords_digestWords _ (hmacEngine_length _ _), hmacEngine_eq_hmacSha1 (keyBytes_length s), keyBytes]

/-- Idle with KEYV = 0, a command that needs the key raises NO_KEY (43_control R230, 60_exceptions R261). -/
theorem exec_noKey {i : Instr} {s : State} (hi : needsKey i = true) (hidle : s.seq = .idle) (hk : keyv s = false) :
    exec i s = .next { s with cmd := encode i, err := true, errcode := .noKey, done := true } :=
  (exec_idle i hidle).trans (congrArg _ (accept_noKey hi hk))

/-- Settles O10: HMAC needs the key, and its commit writes DIGEST and finishes. -/
theorem hmacCommand : Obligations.HmacCommand :=
  ⟨(decode_eq_ok_iff · .hmac), fun _ hidle hk => exec_accepted hidle (.inr hk), fun _ => exec_noKey rfl,
    fun s hbusy => ⟨_, exec_commit .hmac hbusy, digestOf_hmacEngine s (ctrVal s), rfl⟩, rejectedWhileBusy .hmac⟩

end Sys2Proof.Proofs.Hmac
end

section
/-! PROOF. Truncation and format (42_truncate_format R202 to R212): what DynTrunc reads of the digest, the format laws after a
commit, and the DTRUNC and FMT6 commands. -/

namespace Sys2Proof.Proofs.TruncateFormat

open Sys2Proof Sys2Proof.Machine Sys2Proof.Proofs.Encoding Sys2Proof.Proofs.Commands Sys2Proof.Proofs.Invariant

/-! ### Truncation -/

theorem and_lowNibble_le (b : Byte) : (b &&& 0x0F).toNat ≤ 15 := by
  rw [BitVec.toNat_and]
  exact Nat.and_le_right

/-- A 4-byte window at an offset of at most 15 ends at byte 18 or before, so it never sees byte 19 (42_truncate_format R203). -/
theorem window_take {k : Nat} (hk : k ≤ 15) (d : List Byte) : ((d.take 19).drop k).take 4 = (d.drop k).take 4 := by
  rw [List.drop_take, List.take_take, Nat.min_eq_left (by omega)]

/-- DynTrunc reads bytes 0 to 18 and the low four bits of byte 19 (42_truncate_format R203). -/
theorem dynTrunc_congr {d e : List Byte} (hprefix : d.take 19 = e.take 19)
    (hlast : d.getD 19 0 &&& 0x0F = e.getD 19 0 &&& 0x0F) : dynTrunc d = dynTrunc e := by
  have hoff := and_lowNibble_le (e.getD 19 0)
  unfold dynTrunc
  simp only [hlast]
  rw [← window_take hoff d, hprefix, window_take hoff e]

/-- Settles O41: the offset has four bits, the value has bit 31 cleared, and the two digests agree on all DynTrunc reads. -/
theorem truncationRangeLaws : Obligations.TruncationRangeLaws := by
  intro d hlen
  have hoff : (dynTrunc d).off.toNat ≤ 15 := Nat.le_of_lt_succ (dynTrunc d).off.isLt
  refine ⟨hoff, Nat.add_le_add_right hoff 3, dynTrunc_val_lt d, fun b hb => dynTrunc_congr ?_ ?_⟩
  · exact List.take_left' (by simp [hlen])
  · have hb19 : (d.take 19 ++ [b]).getD 19 0 = b := by simp [hlen]
    rw [hb19, hb]

/-- Settles O11: DTRUNC needs no key, and its commit writes the slice of DIGEST and finishes. -/
theorem dtruncCommand : Obligations.DtruncCommand :=
  ⟨(decode_eq_ok_iff · .dtrunc), fun _ hidle => exec_accepted hidle (.inl rfl),
    fun s hbusy => ⟨_, exec_commit .dtrunc hbusy, dynTrunc_spec s.digest, rfl⟩, rejectedWhileBusy .dtrunc⟩

/-! ### Format -/

/-- Going idle touches no code register. -/
theorem codeFormatted_finish_iff (s : State) : CodeFormatted (finish s) ↔ CodeFormatted s := Iff.rfl

/-- FMT6 and TOTP both write the code registers last, through Format6 (42_truncate_format R211, 43_control R236). -/
theorem codeFormatted_resultsOf {op : Instr} (hop : op = .fmt6 ∨ op = .totp) (s : State) : CodeFormatted (resultsOf op s) := by
  rcases hop with rfl | rfl
  · exact codeFormatted_writeCode _ _
  · exact codeFormatted_writeCode _ _

/-- Settles O42: in flight, the command commits, and what it leaves is a formatted code. -/
theorem formatLawsAfterCommit : Obligations.FormatLawsAfterCommit := by
  intro op s t hop hbusy h
  obtain rfl : finish (resultsOf op s) = t := Host.Outcome.next.inj ((exec_commit op hbusy).symm.trans h)
  exact (codeFormatted_finish_iff _).2 (codeFormatted_resultsOf hop s)

/-- Settles O12: FMT6 needs no key, and its commit writes the four code registers from TRUNC and finishes. -/
theorem fmt6Command : Obligations.Fmt6Command :=
  ⟨(decode_eq_ok_iff · .fmt6), fun _ hidle => exec_accepted hidle (.inl rfl),
    fun s hbusy => ⟨_, exec_commit .fmt6 hbusy, format6_spec s.trunc s, rfl⟩, rejectedWhileBusy .fmt6⟩

end Sys2Proof.Proofs.TruncateFormat
end

section
/-! PROOF. The control unit (43_control sections 1 and 2): the step as the meaning of a command, which states have a step, and NOP,
TOTP and ZEROIZE. -/

namespace Sys2Proof.Proofs.Control

open Sys2Proof Sys2Proof.Machine Sys2Proof.Proofs.RegisterWriters Sys2Proof.Proofs.Encoding Sys2Proof.Proofs.Commands
  Sys2Proof.Proofs.TimeSteps Sys2Proof.Proofs.Hmac

/-! ### The step and the command -/

/-- Settles O4: the step is a CMD request, which runs the command the word decodes to. -/
theorem stepRunsTheDecodedCommand : Obligations.StepRunsTheDecodedCommand := fun s _ _ hr hidle hw hd =>
  (step_hostWrites hr hw rfl).trans (commandRequest_legal hd (s := writeServed s) hidle)

theorem engineTurn_idle {s : State} (h : s.seq = .idle) : engineTurn s = .next s := by simp [engineTurn, h]

theorem engineTurn_busy {op : Instr} {s : State} (h : s.seq = .busy op) : engineTurn s = exec op s := by simp [engineTurn, h]

/-- Settles O5: the engine's turn, with a command in flight and with none. -/
theorem engineMoveRunsTheCommandInFlight : Obligations.EngineMoveRunsTheCommandInFlight := by
  intro s hm
  rw [step_engine hm]
  exact ⟨fun _ hbusy => engineTurn_busy (s := afterMove s) hbusy, fun hidle => engineTurn_idle (s := afterMove s) hidle⟩

/-- The engine's turn always has a next state (43_control R231). -/
theorem engineTurn_next (s : State) : ∃ t, engineTurn s = .next t := by
  cases hs : s.seq with
  | idle => exact ⟨s, engineTurn_idle hs⟩
  | busy op =>
    rw [engineTurn_busy hs]
    exact exec_next op s

/-- A move has a next state, but for a host transfer while `rst_n = 0` (70_reset_and_hazards R302). -/
theorem handleEvent_next {e : Event} {s : State} (h : ∀ tr, e = .host tr → s.rstN = true) :
    ∃ t, handleEvent e s = .next t := by
  cases e with
  | host tr =>
    simp only [handleEvent, h tr rfl, if_true]
    exact serve_next tr s
  | engine => exact engineTurn_next s
  | resetAssert lost => exact ⟨_, rfl⟩
  | resetRelease => exact ⟨_, rfl⟩

/-- Settles O7: the next move decides, and an empty schedule is the engine's turn. -/
theorem onlyTransfersDuringResetHaveNoStep : Obligations.OnlyTransfersDuringResetHaveNoStep := by
  refine fun s => ⟨fun ⟨hr, _, hm⟩ => step_host_inReset hm hr, fun hout => ?_⟩
  cases hhead : s.schedule.head? with
  | none =>
    rw [step_engine (.inl hhead)]
    exact engineTurn_next _
  | some e =>
    rw [step_of_head hhead]
    refine handleEvent_next fun tr he => ?_
    have hm : hostMoves s tr := hhead.trans (congrArg some he)
    exact eq_true_of_ne_false fun hr => hout ⟨hr, tr, hm⟩

/-! ### NOP and TOTP -/

/-- Settles O8: NOP needs no key, and its commit only finishes. -/
theorem nopCommand : Obligations.NopCommand :=
  ⟨(decode_eq_ok_iff · .nop), fun _ hidle => exec_accepted hidle (.inl rfl), fun _ hbusy => exec_commit .nop hbusy,
    rejectedWhileBusy .nop⟩

/-- DIGESTBYTES reads back the digest that HMAC writes (41_hmac_sha1 R170). -/
theorem digestBytes_writeDigest {d : List Byte} (h : d.length = 20) (s : State) : digestBytes (writeDigest d s) = d :=
  bytesOfWords_digestWords d h

/-- Exec(TOTP) is the four steps in turn, each reading what the one before it wrote (43_control R236, R237). -/
theorem totpResults_eq_fourSteps (s : State) :
    totpResults s = fmt6Results (dtruncResults (hmacResults (tstepResults s))) := by
  have hkey : keyBytes (tstepResults s) = keyBytes s := rfl
  have hctr : ctrVal (tstepResults s) = timeStep (timeVal s) := ctrVal_writeCtr _ s
  rw [hmacResults, hkey, hctr, dtruncResults, digestBytes_writeDigest (hmacEngine_length _ _)]
  rfl

/-- Settles O13: TOTP needs the key, and each step's registers are what that step's command leaves in them. -/
theorem totpCommand : Obligations.TotpCommand := by
  refine ⟨(decode_eq_ok_iff · .totp), fun _ hidle hk => exec_accepted hidle (.inr hk), fun _ => exec_noKey rfl,
    fun s hbusy => ⟨_, exec_commit .totp hbusy, ?_⟩, rejectedWhileBusy .totp⟩
  have hfour : resultsOf .totp s = fmt6Results (dtruncResults (hmacResults (tstepResults s))) := totpResults_eq_fourSteps s
  rw [hfour]
  exact ⟨counterOfTime_writeCtr s s, digestOf_hmacEngine (tstepResults s) (ctrVal (tstepResults s)),
    dynTrunc_spec (hmacResults (tstepResults s)).digest,
    format6_spec (dtruncResults (hmacResults (tstepResults s))).trunc (dtruncResults (hmacResults (tstepResults s))), rfl⟩

/-! ### ZEROIZE -/

/-- Settles O14: ZEROIZE needs no key, and its commit clears and finishes. -/
theorem zeroizeCommand : Obligations.ZeroizeCommand :=
  ⟨(decode_eq_ok_iff · .zeroize), fun _ hidle => exec_accepted hidle (.inl rfl),
    fun _ hbusy => ⟨_, exec_commit .zeroize hbusy, fun _ _ => Vector.getElem_replicate _,
      fun _ _ => Vector.getElem_replicate _, rfl⟩,
    rejectedWhileBusy .zeroize⟩

/-- The commit of `op`, as a step. -/
theorem step_commits {op : Instr} {s : State} (h : commits op s) : step s = .next (finish (resultsOf op (afterMove s))) := by
  obtain ⟨hbusy, -⟩ := engineMoveRunsTheCommandInFlight s h.2
  exact (hbusy op h.1).trans (exec_commit op h.1)

/-- Settles O47: the commit overwrites every part in which the two states differ, so one step makes them equal. -/
theorem zeroizeScrubsTheKey : Obligations.ZeroizeScrubsTheKey := by
  refine ⟨fun s u n hs hu => ?_, fun _ _ => rfl⟩
  have hcommits : commits .zeroize u := by
    rw [hu]
    exact hs
  have hscrub : finish (zeroizeResults (afterMove u)) = finish (zeroizeResults (afterMove s)) :=
    (congrArg (finish ∘ zeroizeResults ∘ afterMove) hu).trans rfl
  rw [run_succ (step_commits hs), run_succ (step_commits hcommits)]
  exact congrArg (Sys2Proof.core.run n) hscrub.symm

end Sys2Proof.Proofs.Control
end

section
/-! PROOF. Host sequences (43_control R237, R239): the four commands against TOTP, and the entry point's LOADKEY, SETTIME, TOTP,
WAIT. -/

namespace Sys2Proof.Proofs.Sequences

open Sys2Proof Sys2Proof.Machine Sys2Proof.Proofs.RegisterWriters Sys2Proof.Proofs.RegisterWindow
  Sys2Proof.Proofs.BusTransfers Sys2Proof.Proofs.Hmac Sys2Proof.Proofs.Control

/-! ### TOTP and the four commands -/

/-- The run of one accepted command waited to its commit. -/
theorem runsTo_issueAndWait_nil {s : State} (i : Instr) (n : Nat) (hr : s.rstN = true) (hs : s.seq = .idle)
    (hk : needsKey i = false ∨ keyv s = true) : RunsTo s (issueAndWait i n) { waited i s with schedule := [] } := by
  simpa using runsTo_issueAndWait i n [] hr hs hk (runsTo_nil (waited i s))

/-- `s` with everything at reset but TIME, KEY and the registers that hold results. -/
def operandsOf (s : State) : State :=
  { State.reset with
    timeLo := s.timeLo, timeHi := s.timeHi, key := s.key, keywr := s.keywr, ctrLo := s.ctrLo, ctrHi := s.ctrHi
    digest := s.digest, trunc := s.trunc, offset := s.offset, code := s.code, codeBcd := s.codeBcd
    codeAsc0 := s.codeAsc0, codeAsc1 := s.codeAsc1 }

theorem dataRegs_operandsOf (s : State) : dataRegs (operandsOf s) = dataRegs s := rfl

/-- A command waited to its commit is its Exec on the operands; no Exec reads anything else (43_control R233). -/
theorem operandsOf_waited (i : Instr) (s : State) : operandsOf (waited i s) = resultsOf i (operandsOf s) := by
  cases i <;> rfl

/-- The state after TSTEP, HMAC, DTRUNC and FMT6, each waited to its commit. -/
def fourWaited (s : State) : State := waited .fmt6 (waited .dtrunc (waited .hmac (waited .tstep s)))

theorem dataRegs_fourWaited (s : State) : dataRegs (fourWaited s) = dataRegs (waited .totp s) := by
  have hfour : operandsOf (fourWaited s) = operandsOf (waited .totp s) := by
    simp only [fourWaited, operandsOf_waited]
    exact (totpResults_eq_fourSteps (operandsOf s)).symm
  rw [← dataRegs_operandsOf, hfour, dataRegs_operandsOf]

/-- A second command that keeps the key, waited to its commit, leaves STATUS as the first one did. -/
theorem statusWord_waited_waited {i : Instr} (h : i ≠ .zeroize) (j : Instr) (s : State) :
    statusWord (waited i (waited j s)) = statusWord (waited j s) := by
  rw [statusWord_waited h]
  simp only [statusWord, keyv, busy, waited_seq, waited_done, waited_err, waited_errcode]

theorem statusWord_fourWaited (s : State) : statusWord (fourWaited s) = statusWord (waited .totp s) := by
  rw [fourWaited, statusWord_waited_waited (by decide), statusWord_waited_waited (by decide),
    statusWord_waited_waited (by decide), statusWord_waited (by decide), statusWord_waited (by decide)]

theorem runsTo_fourStepMoves {s : State} (polls : Instr → Nat) (hr : s.rstN = true) (hs : s.seq = .idle)
    (hk : keyv s = true) : RunsTo s (fourStepMoves polls) { fourWaited s with schedule := [] } := by
  simp only [fourStepMoves, List.append_assoc]
  refine runsTo_issueAndWait .tstep _ _ hr hs (.inl rfl) ?_
  refine runsTo_issueAndWait .hmac _ _ hr rfl (.inr hk) ?_
  refine runsTo_issueAndWait .dtrunc _ _ hr rfl (.inl rfl) ?_
  exact runsTo_issueAndWait_nil .fmt6 _ hr rfl (.inl rfl)

/-- Settles O43: the two runs, and that they leave the same data registers and STATUS. -/
theorem totpEqualsTheFourSteps : Obligations.TotpEqualsTheFourSteps := fun s polls hr hs hk =>
  ⟨_, _, runsTo_fourStepMoves polls hr hs hk, runsTo_issueAndWait_nil .totp _ hr hs (.inr hk), dataRegs_fourWaited s,
    statusWord_fourWaited s, rfl, rfl, rfl⟩

/-! ### The entry-point sequence -/

/-- The served write of one word of the key `k`. -/
def storeKeyWord (k : Vector Word 8) (s : State) (i : Fin 8) : State := storeReg (.key i) k[i] (respond (.write false) s)

/-- Key words written in any order, out of reset and idle. -/
theorem runsTo_keyWrites (k : Vector Word 8) (is : List (Fin 8)) {s t : State} {es : List Event} (hr : s.rstN = true)
    (hi : busy s = false) (h : RunsTo (is.foldl (storeKeyWord k) s) es t) :
    RunsTo s (is.map (fun i => .host (wr (.key i) k[i])) ++ es) t := by
  induction is generalizing s with
  | nil => exact h
  | cons i is ih => exact runsTo_store rfl hr hi (ih hr hi h)

theorem key_foldl_storeKeyWord (k : Vector Word 8) (is : List (Fin 8)) (s : State) (j : Fin 8) :
    (is.foldl (storeKeyWord k) s).key[j] = if j ∈ is then k[j] else s.key[j] := by
  induction is generalizing s with
  | nil => simp
  | cons i is ih =>
    rw [List.foldl_cons, ih, storeKeyWord, getElem_key_storeKey]
    by_cases hj : j = i <;> simp [hj]

theorem keywr_foldl_storeKeyWord (k : Vector Word 8) (is : List (Fin 8)) (s : State) (j : Fin 8) :
    (is.foldl (storeKeyWord k) s).keywr.getLsbD j.val = (s.keywr.getLsbD j.val || decide (j ∈ is)) := by
  induction is generalizing s with
  | nil => simp
  | cons i is ih =>
    rw [List.foldl_cons, ih, storeKeyWord, getLsbD_keywr_storeKey]
    simp [Bool.or_assoc]

/-- Key writes touch KEY, KEYWR and the bus response only (20_memory R73). -/
theorem foldl_storeKeyWord_frame (k : Vector Word 8) (is : List (Fin 8)) (s : State) :
    is.foldl (storeKeyWord k) s = { s with
      key := (is.foldl (storeKeyWord k) s).key, keywr := (is.foldl (storeKeyWord k) s).keywr
      resp := (is.foldl (storeKeyWord k) s).resp } := by
  induction is generalizing s with
  | nil => rfl
  | cons i is ih => exact ih (storeKeyWord k s i)

/-- LOADKEY leaves the whole key written, whatever was there before (30_encoding R122, 10_state R29). -/
theorem runsTo_loadKey (k : Vector Word 8) {s t : State} {es : List Event} (hr : s.rstN = true) (hi : busy s = false)
    (h : ∀ x, RunsTo { s with key := k, keywr := 0xFF, resp := x } es t) : RunsTo s ((loadKey k).map .host ++ es) t := by
  have hkey : ((List.finRange 8).foldl (storeKeyWord k) s).key = k :=
    Vector.ext fun j hj => by simpa using key_foldl_storeKeyWord k (List.finRange 8) s ⟨j, hj⟩
  have hkeywr : ((List.finRange 8).foldl (storeKeyWord k) s).keywr = BitVec.allOnes 8 :=
    BitVec.eq_of_getLsbD_eq fun j hj => (keywr_foldl_storeKeyWord k (List.finRange 8) s ⟨j, hj⟩).trans <| by
      rw [BitVec.getLsbD_allOnes]
      simp [hj]
  refine runsTo_keyWrites k (List.finRange 8) hr hi ?_
  rw [foldl_storeKeyWord_frame, hkey, hkeywr]
  exact h _

/-- `s` after LOADKEY and SETTIME (30_encoding R122). -/
def readied (k : Vector Word 8) (time : DWord) (s : State) : State :=
  { s with
    key := k, keywr := 0xFF, timeLo := time.extractLsb' 0 32, timeHi := time.extractLsb' 32 32
    resp := some (.write false) }

theorem timeVal_readied (k : Vector Word 8) (time : DWord) (s : State) : timeVal (readied k time s) = time :=
  halves_append time

/-- The entry-point sequence loads the operands and waits for TOTP. -/
theorem runsTo_generateMoves (k : Vector Word 8) (time : DWord) (polls : Nat) {s : State} (hr : s.rstN = true)
    (hs : s.seq = .idle) :
    RunsTo s (generateMoves k time polls) { waited .totp (readied k time s) with schedule := [] } := by
  have hi : busy s = false := (busy_eq_false_iff s).2 hs
  refine runsTo_loadKey k hr hi fun x => runsTo_store rfl hr hi (runsTo_store rfl hr hi ?_)
  exact runsTo_issueAndWait_nil .totp polls (s := readied k time s) hr hs (.inr rfl)

/-- The characters TOTP leaves in CODESTR (43_control R236, 42_truncate_format R211). -/
theorem codeStr_totpResults (s : State) :
    codeStr (totpResults s) = (format6 (dynTrunc (hmacSha1 (keyBytes s) (be8 (timeStep (timeVal s))))).val).chars := by
  rw [totpResults, codeStr_writeCode, hmacEngine_eq_hmacSha1 (keyBytes_length s)]

/-- Settles O44: the run of the sequence, and the code TOTP computes from the key and the time just written. -/
theorem entryPointSequenceGivesTheCode : Obligations.EntryPointSequenceGivesTheCode := by
  intro s k time polls hr hs
  refine ⟨_, runsTo_generateMoves k time polls hr hs, ?_, rfl, rfl, rfl, rfl⟩
  have hcode := codeStr_totpResults (readied k time s)
  rw [timeVal_readied] at hcode
  exact hcode

end Sys2Proof.Proofs.Sequences
end

section
/-! PROOF. Exceptions (60_exceptions sections 2, 3 and 5): busy rejection, the interrupt output, and the confinement of the key. -/

namespace Sys2Proof.Proofs.Exceptions

open Sys2Proof Sys2Proof.Machine Sys2Proof.Proofs.RegisterWriters Sys2Proof.Proofs.RegisterWindow Sys2Proof.Proofs.Control

/-! ### Busy rejection -/

/-- Settles O18: the registers named are CMD and the guarded ones, whose writes are rejected while busy. -/
theorem busyWritesOnlySetBusywr : Obligations.BusyWritesOnlySetBusywr := by
  intro s r w hr hb hw hreg
  have hrej : r = .cmd ∨ guarded r = true := by
    rcases hreg with rfl | rfl | rfl | ⟨i, rfl⟩ | ⟨i, rfl⟩ <;> simp [guarded]
  have hro : readOnly r = false := hrej.elim (fun hcmd => hcmd ▸ rfl) readOnly_of_guarded
  exact (step_hostWrites hr hw hro).trans (writeReg_busy hrej w (s := writeServed s) hb)

/-! ### The interrupt output -/

/-- The two enables are the two low bits of the IRQ_EN word (10_state R30). -/
theorem irqEnWord_bits (s : State) : (irqEnWord s).getLsbD 0 = s.doneIe ∧ (irqEnWord s).getLsbD 1 = s.errIe := by
  have hnum := irqEnWord_toNat s
  have hdoneIe := Bool.toNat_le s.doneIe
  have herrIe := Bool.toNat_le s.errIe
  exact ⟨getLsbD_of_toNat (by omega), getLsbD_of_toNat (by omega)⟩

/-- Settles O25: `irq` is the equation on the flags, which are the bits of the two words; a command error sets DONE and ERR. -/
theorem irqEquation : Obligations.IrqEquation := by
  refine ⟨fun s => ?_, fun s code => by simp [irq], rfl⟩
  obtain ⟨hstatus, -, -, hdone, herr, hbusywr, -⟩ := statusWordFields s
  obtain ⟨hdoneIe, herrIe⟩ := irqEnWord_bits s
  have hirqEn : readReg .irqEn s = irqEnWord s := rfl
  rw [hstatus, hirqEn, hdone, herr, hbusywr, hdoneIe, herrIe, irq]

/-! ### The key

Two states that differ in KEY only make the same step, up to KEY: but for the results of HMAC and TOTP, the contents of KEY go nowhere
else (60_exceptions R280). -/

/-- `s` with the key contents `k`; KEYWR, which records only which words were written, stays. -/
def withKey (k : Vector Word 8) (s : State) : State := { s with key := k }

/-- Acceptance looks at KEYWR, not at the key (43_control R230). -/
theorem accept_withKey (i : Instr) (k : Vector Word 8) (s : State) : accept i (withKey k s) = withKey k (accept i s) := by
  simp only [accept, apply_ite (withKey k)]
  rfl

/-- Only HMAC and TOTP use the key (41_hmac_sha1 R171); ZEROIZE overwrites it. -/
theorem resultsOf_withKey {i : Instr} (hhmac : i ≠ .hmac) (htotp : i ≠ .totp) (k : Vector Word 8) (s : State) :
    ∃ k', resultsOf i (withKey k s) = withKey k' (resultsOf i s) := by
  cases i with
  | hmac => exact absurd rfl hhmac
  | totp => exact absurd rfl htotp
  | zeroize => exact ⟨Vector.replicate 8 0, rfl⟩
  | nop | tstep | dtrunc | fmt6 => exact ⟨k, rfl⟩

theorem storeReg_withKey (r : Reg) (w : Word) (k : Vector Word 8) (s : State) :
    ∃ k', storeReg r w (withKey k s) = withKey k' (storeReg r w s) := by
  cases r with
  | key i => exact ⟨k.set i.val w i.isLt, rfl⟩
  | _ => exact ⟨k, rfl⟩

theorem commandRequest_withKey {w : Word} {s t : State} (k : Vector Word 8) (h : commandRequest w s = .next t) :
    commandRequest w (withKey k s) = .next (withKey k t) := by
  rcases commandRequest_cases w s with ⟨hb, e⟩ | ⟨hi, ⟨_, hd⟩, e⟩ | ⟨hi, i, rfl, e⟩ <;> cases e.symm.trans h
  · exact commandRequest_busy w (s := withKey k s) hb
  · exact commandRequest_illegal hd (s := withKey k s) hi
  · rw [commandRequest_legal (decode_encode i) (s := withKey k s) hi, exec_idle i (s := withKey k s) hi, accept_withKey]

theorem writeReg_withKey {r : Reg} (hro : readOnly r = false) {w : Word} {s t : State} (k : Vector Word 8)
    (h : writeReg r w s = .next t) : ∃ k', writeReg r w (withKey k s) = .next (withKey k' t) := by
  rcases writeReg_cases h with ⟨rfl, hcmd⟩ | ⟨rfl, rfl⟩ | ⟨rfl, rfl⟩ | ⟨hg, hb, rfl⟩ | ⟨hg, hi, rfl⟩ | ⟨hro', -⟩
  · exact ⟨k, commandRequest_withKey k hcmd⟩
  · exact ⟨k, rfl⟩
  · exact ⟨k, rfl⟩
  · exact ⟨k, writeReg_busy (.inr hg) w (s := withKey k s) hb⟩
  · obtain ⟨k', hk'⟩ := storeReg_withKey r w k s
    exact ⟨k', by rw [writeReg_guarded hg, guardedWrite_idle r w (s := withKey k s) hi, hk']⟩
  · exact nomatch hro.symm.trans hro'

/-- KEY reads 0, and no other read looks at it (10_state R31). -/
theorem busRead_withKey (off : BitVec 8) (be : BitVec 4) (k : Vector Word 8) (s : State) :
    busRead off be (withKey k s) = busRead off be s := by
  have hreg (r : Reg) : readReg r (withKey k s) = readReg r s := by cases r <;> rfl
  simp only [busRead, hreg]

/-- The answer of a transfer and its effect outside KEY are the same for every key (20_memory R72, R73). -/
theorem serve_withKey {tr : Transfer} {s t : State} (k : Vector Word 8) (h : serve tr s = .next t) :
    ∃ k', serve tr (withKey k s) = .next (withKey k' t) := by
  cases tr with
  | read off be =>
    cases h
    exact ⟨k, by rw [serve_read, busRead_withKey]; rfl⟩
  | write off be w =>
    rcases write_cases off be w with herr | ⟨r, hro, hw⟩
    · rw [serve_write_error herr] at h
      cases h
      exact ⟨k, serve_write_error herr w (withKey k s)⟩
    · rw [hw, serve_wr hro] at h ⊢
      exact writeReg_withKey hro k h

theorem engineTurn_withKey {s t : State} (hhmac : s.seq ≠ .busy .hmac) (htotp : s.seq ≠ .busy .totp) (k : Vector Word 8)
    (h : engineTurn s = .next t) : ∃ k', engineTurn (withKey k s) = .next (withKey k' t) := by
  cases hs : s.seq with
  | idle =>
    cases (engineTurn_idle hs).symm.trans h
    exact ⟨k, engineTurn_idle (s := withKey k s) hs⟩
  | busy op =>
    cases ((engineTurn_busy hs).trans (exec_commit op hs)).symm.trans h
    obtain ⟨k', hk'⟩ := resultsOf_withKey (i := op) (fun e => hhmac (e ▸ hs)) (fun e => htotp (e ▸ hs)) k s
    refine ⟨k', ?_⟩
    rw [engineTurn_busy (s := withKey k s) hs, exec_commit op (s := withKey k s) hs, hk']
    rfl

/-- Only a host transfer while `rst_n = 0` is refused (70_reset_and_hazards R302). -/
theorem step_refused {s : State} {r : Refusal} (h : step s = .refused r) : s.rstN = false ∧ ∃ tr, hostMoves s tr := by
  obtain ⟨-, hnext⟩ := onlyTransfersDuringResetHaveNoStep s
  by_contra hout
  obtain ⟨t, ht⟩ := hnext hout
  cases h.symm.trans ht

/-- Settles O48, move by move: two states that differ in KEY only step to two such states, or are both refused. -/
theorem keyReachesNothingButHmac : Obligations.KeyReachesNothingButHmac := by
  refine fun s k hhmac htotp => ⟨fun t h => ?_, fun r h => ?_⟩
  · change ∃ k', step (withKey k s) = .next (withKey k' t)
    rcases step_cases h with ⟨tr, hm, hr, hserve⟩ | ⟨hm, hturn⟩ | ⟨⟨lost, hm⟩, rfl⟩ | ⟨hm, rfl⟩
    · rw [step_host (s := withKey k s) hm hr]
      exact serve_withKey k hserve
    · rw [step_engine (s := withKey k s) hm]
      exact engineTurn_withKey (s := afterMove s) (fun hs => hhmac ⟨hs, hm⟩) (fun hs => htotp ⟨hs, hm⟩) k hturn
    · exact ⟨State.reset.key, step_resetAssert (s := withKey k s) hm⟩
    · exact ⟨k, step_resetRelease (s := withKey k s) hm⟩
  · obtain ⟨hr, tr, hm⟩ := step_refused h
    rw [← h, step_host_inReset hm hr, step_host_inReset (s := { s with key := k }) hm hr]

end Sys2Proof.Proofs.Exceptions
end

section
/-! PROOF. Reset and progress (70_reset_and_hazards sections 1 and 4): the reset values, reset from any state, and the commit of a command
in flight. -/

namespace Sys2Proof.Proofs.Reset

open Sys2Proof Sys2Proof.Machine Sys2Proof.Proofs.Invariant Sys2Proof.Proofs.BusTransfers Sys2Proof.Proofs.Control

/-! ### A command in flight commits -/

/-- The next move of a busy engine out of reset is the commit, or a step that leaves the command in flight: a transfer touches neither
the sequencer nor `rst_n` (20_memory R74), and releasing `rst_n` finds it released. -/
theorem commits_or_step_busy {op : Instr} {s : State} (hr : s.rstN = true) (hs : s.seq = .busy op) (hreset : ¬ resetMoves s) :
    commits op s ∨ ∃ u, step s = .next u ∧ u.rstN = true ∧ u.seq = .busy op := by
  cases hhead : s.schedule.head? with
  | none => exact .inl ⟨hs, .inl hhead⟩
  | some e =>
    cases e with
    | engine => exact .inl ⟨hs, .inr hhead⟩
    | resetAssert lost => exact absurd ⟨lost, hhead⟩ hreset
    | resetRelease => exact .inr ⟨_, step_resetRelease hhead, rfl, hs⟩
    | host tr =>
      obtain ⟨u, hu⟩ := serve_next tr (afterMove s)
      have hb : busy (afterMove s) = true := (busy_eq_true_iff _).2 ⟨op, hs⟩
      obtain ⟨-, -, -, hseq, hrst⟩ := kept_of_forgetFlags (forgetFlags_serve hb hu)
      exact .inr ⟨u, (step_host hhead hr).trans hu, hrst.trans hr, hseq.trans hs⟩

/-- With no reset to come, the state in which a command in flight commits is reached within the moves scheduled. -/
theorem exists_run_commits {op : Instr} {s : State} (hr : s.rstN = true) (hs : s.seq = .busy op)
    (hreset : ∀ lost, .resetAssert lost ∉ s.schedule) :
    ∃ k ≤ s.schedule.length, ∃ u, Sys2Proof.core.run k s = .next u ∧ commits op u := by
  induction hes : s.schedule generalizing s with
  | nil => exact ⟨0, le_rfl, s, rfl, hs, .inl (by simp [hes])⟩
  | cons e es ih =>
    have hmoves : ¬ resetMoves s := fun ⟨lost, hlost⟩ => hreset lost (List.mem_of_head? hlost)
    rcases commits_or_step_busy hr hs hmoves with hc | ⟨t, hstep, hrt, hst⟩
    · exact ⟨0, Nat.zero_le _, s, rfl, hc⟩
    · have htail : t.schedule = es := by simpa [hes] using step_schedule hstep
      have hrest (lost) : .resetAssert lost ∉ t.schedule := fun hmem => hreset lost (by simp [hes, ← htail, hmem])
      obtain ⟨k, hk, u, hrun, hc⟩ := ih hrt hst hrest htail
      exact ⟨k + 1, Nat.succ_le_succ hk, u, (run_succ hstep k).trans hrun, hc⟩

/-- Settles O46: the run to the commit, and the commit, which ends in `finish`. -/
theorem commandInFlightCommits : Obligations.CommandInFlightCommits := by
  intro s op hr hs hreset
  obtain ⟨k, hk, u, hrun, hc⟩ := exists_run_commits hr hs hreset
  exact ⟨k, hk, u, _, hrun, hc, step_commits hc, rfl, rfl⟩

/-! ### Reset -/

/-- Settles O27, register by register. -/
theorem resetValues : Obligations.ResetValues := by
  refine ⟨rfl, fun r hr => ?_, fun i h => Vector.getElem_replicate h, rfl, rfl, rfl⟩
  cases r with
  | id => exact absurd rfl hr
  | digest i => exact Vector.getElem_replicate i.isLt
  | _ => rfl

/-- What reset keeps (the moves to come and the draws) and the level `rst_n` are read through no register. -/
theorem readReg_resetEngine (r : Reg) (s : State) : readReg r (resetEngine s) = readReg r State.reset := by
  cases r <;> rfl

/-- Settles O28: the assertion is `resetEngine`, whatever the state and the lost transfer; the release sets the level. -/
theorem resetFromAnyState : Obligations.ResetFromAnyState :=
  ⟨fun s _ hassert => ⟨resetEngine (afterMove s), step_resetAssert hassert, rfl, rfl, rfl, rfl, rfl,
      (readReg_resetEngine · (afterMove s)), rfl⟩,
    fun _ hrelease => step_resetRelease hrelease⟩

/-- Settles O29: the reset state is what asserting reset leads to, with `rst_n` back at 1. -/
theorem invariantAtReset : Obligations.InvariantAtReset :=
  inv_of_frame (inv_resetEngine State.reset) rfl (fun _ => rfl) rfl

end Sys2Proof.Proofs.Reset
end
